-- ==== Sys2Proof/Word.lean ====
section
/-! DEFINITION. The word types of the tick timer block (spec 00 R8, R9; 30 R81). -/

namespace Sys2Proof

/-- A `u32`: `+`, `-` and `*` on it are the spec's `+32`, `−32` and `·32` (00 R9). -/
abbrev Word := BitVec 32

/-- One 64-bit operation word `W64` (30 R81). -/
abbrev OpWord := BitVec 64

end Sys2Proof
end

