-- ==== Sys2Proof/Syntax.lean ====
section
/-! DEFINITION. The operands and the 31 operations of `spec/opcode_table.json`, one constructor a row. -/

namespace Sys2Proof

/-- A flag set: the two interrupt sources CMP and OVF (10 R31, R32; 30 R88). -/
structure Flags where
  cmp : Bool
  ovf : Bool
deriving DecidableEq, Repr, Inhabited

/-- The 2-bit field CTRL.MODE (10 R28, 30 R87): `00` is COUNT32, the only admitted value. -/
inductive CtrlMode where
  | count32
  | code01
  | code10
  | code11
deriving DecidableEq, Repr, Inhabited

/-- A control value: the fields of CTRL (10 R26 to R30; 30 R87). -/
structure Ctrl where
  swrst     : Bool
  enable    : Bool
  mode      : CtrlMode
  matchclr  : Bool
  prescaler : BitVec 4
deriving DecidableEq, Repr, Inhabited

/-- The software variables that LD_VAR and ST_VAR select (30 R84). -/
inductive Var where
  | lastMark
  | tickCount
  | target
deriving DecidableEq, Repr, Inhabited

/-- The operations, in the order of the opcode table (30 R90). -/
inductive Instr where
  /-- INIT, 43 R186. -/
  | init
  /-- SET_TIMEOUT.T, 41 R141; `ticks` is read as an `s32` (30 R85). -/
  | setTimeoutT (ticks : Word) (isIdle : Bool)
  /-- SET_TIMEOUT.P, 42 R161; `ticks` is read as an `s32` (30 R85). -/
  | setTimeoutP (ticks : Word) (isIdle : Bool)
  /-- QUERY_ELAPSED.T, 41 R143. -/
  | queryElapsedT
  /-- QUERY_ELAPSED.P, 42 R162. -/
  | queryElapsedP
  /-- IDLE_EXIT.T, 41 R144. -/
  | idleExitT
  /-- IDLE_EXIT.P, 42 R163. -/
  | idleExitP
  /-- ISR.T, 41 R145. -/
  | isrT
  /-- ISR.P, 42 R164. -/
  | isrP
  /-- ANNOUNCE, 43 R183. -/
  | announce (n : Word)
  /-- IRET, 43 R185. -/
  | iret
  /-- RD_COUNT, 40 R110. -/
  | rdCount
  /-- WR_COMP, 40 R111. -/
  | wrComp (value : Word)
  /-- RD_COMP, 40 R112. -/
  | rdComp
  /-- WAIT_SYNC, 40 R113. -/
  | waitSync
  /-- RD_SYNCBUSY, 40 R114. -/
  | rdSyncbusy
  /-- RD_INTFLAG, 40 R115. -/
  | rdIntflag
  /-- WR_INTFLAG, 40 R116. -/
  | wrIntflag (flags : Flags)
  /-- WR_INTENSET, 40 R117. -/
  | wrIntenset (flags : Flags)
  /-- WR_INTENCLR, 40 R118. -/
  | wrIntenclr (flags : Flags)
  /-- RD_INTEN, 40 R119. -/
  | rdInten
  /-- WR_CTRL, 40 R120. -/
  | wrCtrl (value : Ctrl)
  /-- RD_CTRL, 40 R121. -/
  | rdCtrl
  /-- NVIC_SETPEND, 40 R124. -/
  | nvicSetpend
  /-- NVIC_CLRPEND, 40 R125. -/
  | nvicClrpend
  /-- NVIC_ENABLE, 40 R126. -/
  | nvicEnable
  /-- NVIC_DISABLE, 40 R127. -/
  | nvicDisable
  /-- IRQ_LOCK, 40 R128. -/
  | irqLock
  /-- IRQ_UNLOCK, 40 R129. -/
  | irqUnlock (key : Word)
  /-- LD_VAR, 40 R122. -/
  | ldVar (var : Var)
  /-- ST_VAR, 40 R123. -/
  | stVar (var : Var) (value : Word)
deriving DecidableEq, Repr, Inhabited

end Sys2Proof
end

