-- ==== Sys2Proof/Config.lean ====
section
/-! DEFINITION. The implementation parameters (00 section 4), the turns of a schedule (00 R11, 70 R243),
and the free values of what the spec leaves open. -/

namespace Sys2Proof

/-- The build mode (00 R2). -/
inductive Mode where
  | tickless
  | periodic
deriving DecidableEq, Repr, Inhabited

/-- The implementation parameters of 00 section 4, fixed for a run. -/
structure Config where
  /-- MODE (00 R2). -/
  mode : Mode
  /-- CPT, cycles per tick (00 R4). -/
  cpt : Nat
  /-- MAX_TICKS (00 R5). -/
  maxTicks : Nat
  /-- LEAD_THRESHOLD (00 R6). -/
  leadThreshold : Nat
  /-- ANNOUNCE_ZERO_ON_EQUAL (00 R7). -/
  announceZeroOnEqual : Bool
deriving DecidableEq, Repr, Inhabited

/-- The constraints that 00 R4, R5, R6 and 70 R244 put on the parameters. -/
def Config.valid (c : Config) : Bool :=
  decide (1 ≤ c.cpt) && (c.mode == .tickless || decide (2 ≤ c.cpt))
    && decide (c.maxTicks * c.cpt + 2 * (c.cpt - 1) ≤ 2 ^ 32 - 1) && decide (1 ≤ c.leadThreshold)

/-- The default of MAX_TICKS (92 D5). -/
def Config.defaultMaxTicks (cpt : Nat) : Nat :=
  (2 ^ 32 - 1) / cpt - 2

/-- A build: the conventions of 95 section 0 with the given mode. DESIGN CHOICE, log entry 1: the spec
gives MODE, CPT and LEAD_THRESHOLD no value. -/
def Config.build (mode : Mode) : Config :=
  { mode := mode, cpt := 10, maxTicks := Config.defaultMaxTicks 10, leadThreshold := 3,
    announceZeroOnEqual := false }

/-- One turn of the schedule: which agent is asked to take its next atomic step (00 R11, 70 R243).
DESIGN CHOICE, log entry 4. -/
inductive Turn where
  /-- The host, or a test program, issues an operation word (30 R94). -/
  | issue (w : OpWord)
  /-- The processor performs the next numbered step of the context that runs. -/
  | proc
  /-- The `n`-th of a test program's primitives in flight performs its next step (30 R94; log entry 9). -/
  | program (n : Nat)
  /-- The counter agent (40 R101). -/
  | counter
  /-- The synchronisation unit (40 R105). -/
  | sync
  /-- Interrupt entry (60 R208). -/
  | enter
  /-- The host returns from the announce callback (43 R184). -/
  | hostReturn
deriving DecidableEq, Repr, Inhabited

/-- Free value: the turn taken when the list of turns is empty (70 R243: any order). Log entry 4. -/
opaque Config.freeTurn : Nat → Turn

/-- Free value: COUNT after a counter step before the first software reset (70 R231). Log entry 3. -/
opaque Config.launchCount : Nat → Word

/-- Free value: INTFLAG after a counter step before the first software reset (70 R231). Log entry 3. -/
opaque Config.launchFlags : Nat → Flags

end Sys2Proof
end

