-- ==== Sys2Proof/WellFormed.lean ====
section
/-! DEFINITION. Which syntax terms an operation word can spell (30 R87, R92). -/

namespace Sys2Proof

/-- A control value that may be written: MODE = COUNT32 and PRESCALER = 0 (30 R87, 40 R120). -/
def Ctrl.modelled (c : Ctrl) : Bool :=
  c.mode == .count32 && c.prescaler == 0

/-- An IRQ_UNLOCK key is 0 or 1 (30 R92, 40 R129). -/
def keyOk (key : Word) : Bool :=
  key == 0 || key == 1

/-- The field constraints of 30 R92 that a syntax term can still break. -/
def Instr.wf : Instr → Bool
  | .init => true
  | .setTimeoutT _ _ => true
  | .setTimeoutP _ _ => true
  | .queryElapsedT => true
  | .queryElapsedP => true
  | .idleExitT => true
  | .idleExitP => true
  | .isrT => true
  | .isrP => true
  | .announce _ => true
  | .iret => true
  | .rdCount => true
  | .wrComp _ => true
  | .rdComp => true
  | .waitSync => true
  | .rdSyncbusy => true
  | .rdIntflag => true
  | .wrIntflag _ => true
  | .wrIntenset _ => true
  | .wrIntenclr _ => true
  | .rdInten => true
  | .wrCtrl c => c.modelled
  | .rdCtrl => true
  | .nvicSetpend => true
  | .nvicClrpend => true
  | .nvicEnable => true
  | .nvicDisable => true
  | .irqLock => true
  | .irqUnlock key => keyOk key
  | .ldVar _ => true
  | .stVar _ _ => true

end Sys2Proof
end

