-- ==== Sys2Proof/Decode.lean ====
section
/-! DEFINITION. The decoder of 30 R98, total on 64-bit words, and after it the encoder (30 R81 to R90). -/

namespace Sys2Proof

/-- The decoder's verdicts on a word that spells no operation (30 R98). -/
inductive DecodeError where
  | reservedBits
  | unassigned
  | field
deriving DecidableEq, Repr

/-- `w[7:0]` (30 R81). -/
def OpWord.opc (w : OpWord) : BitVec 8 := w.extractLsb' 0 8

/-- `w[8]` (30 R81, R83). -/
def OpWord.b (w : OpWord) : Bool := w.getLsbD 8

/-- `w[10:9]` (30 R81, R84). -/
def OpWord.v (w : OpWord) : BitVec 2 := w.extractLsb' 9 2

/-- `w[31:11]` (30 R81, R86). -/
def OpWord.rsv (w : OpWord) : BitVec 21 := w.extractLsb' 11 21

/-- `w[63:32]` (30 R81, R85). -/
def OpWord.imm (w : OpWord) : Word := w.extractLsb' 32 32

/-- The operation a row of 30 R90 names, before its operands are read. -/
inductive Row where
  | init | setTimeoutT | setTimeoutP | queryElapsedT | queryElapsedP | idleExitT | idleExitP
  | isrT | isrP | announce | iret | rdCount | wrComp | rdComp | waitSync | rdSyncbusy | rdIntflag
  | wrIntflag | wrIntenset | wrIntenclr | rdInten | wrCtrl | rdCtrl | nvicSetpend | nvicClrpend
  | nvicEnable | nvicDisable | irqLock | irqUnlock | ldVar | stVar
deriving DecidableEq, Repr

/-- The operation map of 30 R90; every other code is unassigned (30 R91). -/
def lookup (opc : BitVec 8) : Option Row :=
  match opc.toNat with
  | 0x01 => some .init
  | 0x02 => some .setTimeoutT
  | 0x82 => some .setTimeoutP
  | 0x03 => some .queryElapsedT
  | 0x83 => some .queryElapsedP
  | 0x04 => some .idleExitT
  | 0x84 => some .idleExitP
  | 0x05 => some .isrT
  | 0x85 => some .isrP
  | 0x06 => some .announce
  | 0x07 => some .iret
  | 0x40 => some .rdCount
  | 0x41 => some .wrComp
  | 0x42 => some .rdComp
  | 0x43 => some .waitSync
  | 0x44 => some .rdSyncbusy
  | 0x45 => some .rdIntflag
  | 0x46 => some .wrIntflag
  | 0x47 => some .wrIntenset
  | 0x48 => some .wrIntenclr
  | 0x49 => some .rdInten
  | 0x4A => some .wrCtrl
  | 0x4B => some .rdCtrl
  | 0x60 => some .nvicSetpend
  | 0x61 => some .nvicClrpend
  | 0x62 => some .nvicEnable
  | 0x63 => some .nvicDisable
  | 0x64 => some .irqLock
  | 0x65 => some .irqUnlock
  | 0x70 => some .ldVar
  | 0x71 => some .stVar
  | _ => none

/-- Rows with the operand `is_idle` in `B` (30 R83). -/
def Row.hasB (row : Row) : Bool :=
  decide (row ∈ [.setTimeoutT, .setTimeoutP])

/-- Rows with a variable selector in `V` (30 R84). -/
def Row.hasV (row : Row) : Bool :=
  decide (row ∈ [.ldVar, .stVar])

/-- Rows with an immediate in `IMM32` (30 R85). -/
def Row.hasImm (row : Row) : Bool :=
  decide (row ∈
    [.setTimeoutT, .setTimeoutP, .announce, .wrComp, .wrIntflag, .wrIntenset, .wrIntenclr, .wrCtrl,
    .irqUnlock, .stVar])

/-- Rows whose immediate is a flag set (30 R88). -/
def Row.hasFlags (row : Row) : Bool :=
  decide (row ∈ [.wrIntflag, .wrIntenset, .wrIntenclr])

/-- `ctrl_ok` of 30 R98: reserved bits 0, MODE = 00, PRESCALER = 0. -/
def ctrlOk (c : Word) : Bool :=
  c.extractLsb' 12 20 == 0 && c.extractLsb' 4 3 == 0 && c.extractLsb' 2 2 == 0 && c.extractLsb' 8 4 == 0

/-- A flag set has no bit but 0 and 7 (30 R88, R98). -/
def flagsOk (f : Word) : Bool :=
  f &&& ~~~(0x81 : Word) == 0

/-- A flag set read from a word (30 R88). -/
def Flags.ofWord (w : Word) : Flags :=
  { cmp := w.getLsbD 0, ovf := w.getLsbD 7 }

/-- A flag set as a word (30 R88). -/
def Flags.toWord (f : Flags) : Word :=
  (if f.cmp then 0x01 else 0) ||| (if f.ovf then 0x80 else 0)

/-- The field MODE read from its two bits (30 R87). -/
def CtrlMode.ofBits (b : BitVec 2) : CtrlMode :=
  match b.toNat with
  | 0 => .count32
  | 1 => .code01
  | 2 => .code10
  | _ => .code11

/-- The two bits of the field MODE (30 R87). -/
def CtrlMode.toBits : CtrlMode → BitVec 2
  | .count32 => 0
  | .code01 => 1
  | .code10 => 2
  | .code11 => 3

/-- A control value read from a word (30 R87). -/
def Ctrl.ofWord (w : Word) : Ctrl :=
  { swrst := w.getLsbD 0, enable := w.getLsbD 1, mode := CtrlMode.ofBits (w.extractLsb' 2 2),
    matchclr := w.getLsbD 7, prescaler := w.extractLsb' 8 4 }

/-- A control value as a word: PRESCALER in 11:8, MATCHCLR in 7, MODE in 3:2, ENABLE in 1, SWRST in 0,
every other bit 0 (30 R87). -/
def Ctrl.toWord (c : Ctrl) : Word :=
  0#20 ++ c.prescaler ++ BitVec.ofBool c.matchclr ++ 0#3 ++ c.mode.toBits ++ BitVec.ofBool c.enable
    ++ BitVec.ofBool c.swrst

/-- The variable that a selector names; 3 is reserved (30 R84). -/
def Var.ofBits (v : BitVec 2) : Option Var :=
  match v.toNat with
  | 0 => some .lastMark
  | 1 => some .tickCount
  | 2 => some .target
  | _ => none

/-- The selector of a variable (30 R84). -/
def Var.toBits : Var → BitVec 2
  | .lastMark => 0
  | .tickCount => 1
  | .target => 2

/-- `term` of 30 R98: the row with its operands read from `B`, `V` and `IMM32`. -/
def Row.term (row : Row) (b : Bool) (var : Var) (imm : Word) : Instr :=
  match row with
  | .init => .init
  | .setTimeoutT => .setTimeoutT imm b
  | .setTimeoutP => .setTimeoutP imm b
  | .queryElapsedT => .queryElapsedT
  | .queryElapsedP => .queryElapsedP
  | .idleExitT => .idleExitT
  | .idleExitP => .idleExitP
  | .isrT => .isrT
  | .isrP => .isrP
  | .announce => .announce imm
  | .iret => .iret
  | .rdCount => .rdCount
  | .wrComp => .wrComp imm
  | .rdComp => .rdComp
  | .waitSync => .waitSync
  | .rdSyncbusy => .rdSyncbusy
  | .rdIntflag => .rdIntflag
  | .wrIntflag => .wrIntflag (Flags.ofWord imm)
  | .wrIntenset => .wrIntenset (Flags.ofWord imm)
  | .wrIntenclr => .wrIntenclr (Flags.ofWord imm)
  | .rdInten => .rdInten
  | .wrCtrl => .wrCtrl (Ctrl.ofWord imm)
  | .rdCtrl => .rdCtrl
  | .nvicSetpend => .nvicSetpend
  | .nvicClrpend => .nvicClrpend
  | .nvicEnable => .nvicEnable
  | .nvicDisable => .nvicDisable
  | .irqLock => .irqLock
  | .irqUnlock => .irqUnlock imm
  | .ldVar => .ldVar var
  | .stVar => .stVar var imm

/-- The field constraints of one row (30 R92, the tests of R98 after the lookup). -/
def Row.fieldsOk (row : Row) (b : Bool) (v : BitVec 2) (imm : Word) : Bool :=
  (!b || row.hasB) && (v == 0 || row.hasV) && (imm == 0 || row.hasImm)
    && (row != .wrCtrl || ctrlOk imm) && (!row.hasFlags || flagsOk imm)
    && (row != .irqUnlock || keyOk imm)

/-- The decoder (30 R98). -/
def decode (w : OpWord) : Except DecodeError Instr :=
  if w.rsv ≠ 0 then .error .reservedBits
  else
    match lookup w.opc with
    | none => .error .unassigned
    | some row =>
      match Var.ofBits w.v with
      | none => .error .field
      | some var =>
        if row.fieldsOk w.b w.v w.imm then .ok (row.term w.b var w.imm) else .error .field

/-- The word that holds the given fields, `RSV` being 0 (30 R81). -/
def assemble (opc : BitVec 8) (b : Bool) (v : BitVec 2) (imm : Word) : OpWord :=
  imm ++ 0#21 ++ v ++ BitVec.ofBool b ++ opc

/-- The operation word of an operation (30 R81 to R90). -/
def encode : Instr → OpWord
  | .init => assemble 0x01 false 0 0
  | .setTimeoutT ticks isIdle => assemble 0x02 isIdle 0 ticks
  | .setTimeoutP ticks isIdle => assemble 0x82 isIdle 0 ticks
  | .queryElapsedT => assemble 0x03 false 0 0
  | .queryElapsedP => assemble 0x83 false 0 0
  | .idleExitT => assemble 0x04 false 0 0
  | .idleExitP => assemble 0x84 false 0 0
  | .isrT => assemble 0x05 false 0 0
  | .isrP => assemble 0x85 false 0 0
  | .announce n => assemble 0x06 false 0 n
  | .iret => assemble 0x07 false 0 0
  | .rdCount => assemble 0x40 false 0 0
  | .wrComp value => assemble 0x41 false 0 value
  | .rdComp => assemble 0x42 false 0 0
  | .waitSync => assemble 0x43 false 0 0
  | .rdSyncbusy => assemble 0x44 false 0 0
  | .rdIntflag => assemble 0x45 false 0 0
  | .wrIntflag flags => assemble 0x46 false 0 flags.toWord
  | .wrIntenset flags => assemble 0x47 false 0 flags.toWord
  | .wrIntenclr flags => assemble 0x48 false 0 flags.toWord
  | .rdInten => assemble 0x49 false 0 0
  | .wrCtrl value => assemble 0x4A false 0 value.toWord
  | .rdCtrl => assemble 0x4B false 0 0
  | .nvicSetpend => assemble 0x60 false 0 0
  | .nvicClrpend => assemble 0x61 false 0 0
  | .nvicEnable => assemble 0x62 false 0 0
  | .nvicDisable => assemble 0x63 false 0 0
  | .irqLock => assemble 0x64 false 0 0
  | .irqUnlock key => assemble 0x65 false 0 key
  | .ldVar var => assemble 0x70 false var.toBits 0
  | .stVar var value => assemble 0x71 false var.toBits value

/-- The instruction the decoder reads from the table's numbering of the bits. One operation is one 64-bit
word and no byte order is observable (20 R64), so the table's number is the word itself; bits above
`nbits` are 0. Log entry 18. -/
def decodeTableWord (nbits w : Nat) : Option Instr :=
  match decode (BitVec.ofNat 64 (w % 2 ^ nbits)) with
  | .ok i => some i
  | .error _ => none

end Sys2Proof
end

