-- ==== Sys2Proof/Machine/State.lean ====
section
/-! DEFINITION. The state of the tick timer block, plain data (spec 10), its outcomes, and the launch state
(70 R231). -/

namespace Sys2Proof.Machine

/-- The reasons of a refusal (60 R204). -/
inductive Reason where
  | configInvalid
  | reservedBits
  | unassigned
  | field
  | wrongMode
  | wrongIssuer
  | notInited
  | initTwice
  | concurrentCall
  | ctrlUnmodelled
deriving DecidableEq, Repr

/-- The kernel-facing operations, as LOG names them (10 R40, 43 R187). -/
inductive Call where
  | init
  | setTimeoutT
  | setTimeoutP
  | queryElapsedT
  | queryElapsedP
  | idleExitT
  | idleExitP
deriving DecidableEq, Repr

/-- The result of a kernel-facing operation (00 R13). -/
inductive Result where
  /-- SET_TIMEOUT and IDLE_EXIT return nothing. -/
  | none
  /-- INIT's status OK. No step returns FAIL (43 R186, 92 D20). -/
  | ok
  /-- INIT's status FAIL, which 00 R13 names and no step returns. -/
  | fail
  /-- The `u32` of QUERY_ELAPSED. -/
  | ticks (n : Word)
deriving DecidableEq, Repr

/-- An event of LOG (10 R40). -/
inductive Event where
  | announce (n : Word)
  | returned (op : Call) (v : Result)
  | refused (reason : Reason)
deriving DecidableEq, Repr

/-- The execution context (10 R39). -/
inductive Context where
  | normal
  | isr
deriving DecidableEq, Repr

/-- The synchronisation slot SYNC_OP (10 R34). -/
inductive SyncOp where
  | none
  | writeCtrl (c : Ctrl)
  | writeComp (v : Word)
  | readCount
deriving DecidableEq, Repr

/-- Who performs the operation that `exec` is given: a new call of the host or of a test program; the
sequencer, which performs the next step of the operation that the context runs; or a test program's
`n`-th primitive in flight, which performs its next step. Log entry 15. -/
inductive Issuer where
  | host
  | sequencer
  | program (n : Nat)
deriving DecidableEq, Repr

/-- A sequencer position `(op, k)` (10 R22) with the locals of the running operation (10 R44): `t` and `r`
of 41 R141 as naturals, `m`, `c`, `s`, `key`, and `tick`, the local `k` of 42 R161, R162 and R164. -/
structure Frame where
  op   : Instr
  k    : Nat
  t    : Nat
  m    : Word
  c    : Word
  r    : Nat
  s    : Flags
  key  : Word
  tick : Word
deriving DecidableEq, Repr

/-- The position at which an operation starts: step 1, no local written yet (log entry 13). -/
def Frame.start (op : Instr) : Frame :=
  { op := op, k := 1, t := 0, m := 0, c := 0, r := 0, s := ⟨false, false⟩, key := 0, tick := 0 }

/-- The whole state. Every field but the last three is the spec's (10, 00 section 4, 70 R231). -/
structure State where
  /-- The build parameters (00 section 4); no step changes them. -/
  cfg : Config
  /-- COUNT (10 R24). -/
  count : Word
  /-- COMP, the landed comparator (10 R25). -/
  comp : Word
  /-- CTRL, the landed control fields (10 R26 to R30). -/
  ctrl : Ctrl
  /-- INTEN (10 R31). -/
  inten : Flags
  /-- INTFLAG (10 R32). -/
  intflag : Flags
  /-- SYNCBUSY (10 R33). -/
  syncbusy : Bool
  /-- SYNC_OP (10 R34). -/
  syncOp : SyncOp
  /-- COUNT_SNAP (10 R35). -/
  countSnap : Word
  /-- Whether the first software reset has landed (70 R231; log entry 3). -/
  swrstLanded : Bool
  /-- IRQ_PEND (10 R36). -/
  irqPend : Bool
  /-- IRQ_EN (10 R37). -/
  irqEn : Bool
  /-- IRQ_LOCKED (10 R38). -/
  irqLocked : Bool
  /-- CTX (10 R39). -/
  ctx : Context
  /-- LAST_MARK (10 R41). -/
  lastMark : Word
  /-- TICK_COUNT (10 R42). -/
  tickCount : Word
  /-- TARGET (10 R43). -/
  target : Word
  /-- INITED (10 R45). -/
  inited : Bool
  /-- REFUSED (10 R46). -/
  refused : Bool
  /-- LOG (10 R40), oldest first. -/
  log : List Event
  /-- `seq[NORMAL]` and its locals (10 R22, R44); `none` is idle. -/
  seqNormal : Option Frame
  /-- `seq[ISR]` and its locals (10 R22, R44); `none` is idle. -/
  seqIsr : Option Frame
  /-- The ANNOUNCE that the handler is performing (43 R183); at its step 2 the host callback is open. DESIGN
  CHOICE: it has a position beside `seq[ISR]` (log entry 24). -/
  seqAnn : Option Frame
  /-- The host's call in flight inside the announce callback (43 R184). DESIGN CHOICE: it has a position and
  locals of its own beside `seq[ISR]`, where the handler's stay (log entry 24). -/
  seqCall : Option Frame
  /-- The primitives that a test program has issued directly and that are in flight, oldest first, each with
  its position and locals (30 R94, 10 R44; log entry 9). -/
  prims : List Frame
  /-- The local of a test program that takes the result of a directly issued read (10 R44, 40 R110). -/
  dest : Word
  /-- MODEL: who performs the operation `exec` is given (log entry 15). -/
  issuer : Issuer
  /-- MODEL: the turns still to be taken (log entry 4). -/
  sched : List Turn
  /-- MODEL: the counter that the free values are applied to (log entries 3 and 4). -/
  fresh : Nat
deriving DecidableEq, Repr

/-- The reasons a step stops with a fault. The block itself has none (60 R201). -/
inductive Fault where
  /-- Raised by a meaning when the operation's position names no step of the operation. Safe: no run
  reaches such a state (log entry 16). -/
  | noSuchStep
deriving DecidableEq, Repr

/-- The reasons a step is refused. A refusal of the SPEC (60 R204) is a next state, not one of these. -/
inductive Refusal where
  /-- Raised by `exec` for an instruction that has no meaning. No arm raises it. Safe. -/
  | notModelled (mnemonic : String)
  /-- Raised by `step` when REFUSED = 1: no agent has a step (10 R46). Safe. -/
  | halted
deriving DecidableEq, Repr

/-- What a meaning answers. -/
abbrev Res := Host.Outcome State Fault Refusal

/-- CTRL after the software reset (10 R48). -/
def resetCtrl : Ctrl :=
  { swrst := false, enable := false, mode := .count32, matchclr := false, prescaler := 0 }

/-- The launch state (70 R231) of a build. What R231 leaves unspecified is 0 (log entry 2). -/
def State.launch (cfg : Config) : State :=
  { cfg := cfg, count := 0, comp := 0, ctrl := resetCtrl, inten := ⟨false, false⟩,
    intflag := ⟨false, false⟩, syncbusy := false, syncOp := .none, countSnap := 0,
    swrstLanded := false, irqPend := false, irqEn := false, irqLocked := false, ctx := .normal,
    lastMark := 0, tickCount := 0, target := 0, inited := false, refused := false, log := [],
    seqNormal := none, seqIsr := none, seqAnn := none, seqCall := none, prims := [], dest := 0,
    issuer := .host, sched := [], fresh := 0 }

/-- The machine right after reset: the launch state of the build of log entry 1. -/
def State.reset : State :=
  State.launch (Config.build .tickless)

end Sys2Proof.Machine
end

