-- ==== Sys2Proof/Machine/Flags.lean ====
section
/-! DEFINITION. Flag sets, the interrupt line level, and the flags of a counter step
(10 R31, R32; 40 R102, R103; 60 R203). -/

namespace Sys2Proof

/-- `{}`. -/
def Flags.empty : Flags := ⟨false, false⟩

/-- `{CMP}`. -/
def Flags.onlyCmp : Flags := ⟨true, false⟩

/-- `{OVF}`. -/
def Flags.onlyOvf : Flags := ⟨false, true⟩

/-- `{CMP,OVF}`. -/
def Flags.both : Flags := ⟨true, true⟩

/-- `a ∪ b` (40 R117). -/
def Flags.union (a b : Flags) : Flags :=
  ⟨a.cmp || b.cmp, a.ovf || b.ovf⟩

/-- `a ∩ b` (60 R203). -/
def Flags.inter (a b : Flags) : Flags :=
  ⟨a.cmp && b.cmp, a.ovf && b.ovf⟩

/-- `a \ b` (40 R116, R118). -/
def Flags.diff (a b : Flags) : Flags :=
  ⟨a.cmp && !b.cmp, a.ovf && !b.ovf⟩

/-- `a = {}`. -/
def Flags.isEmpty (a : Flags) : Bool :=
  !a.cmp && !a.ovf

namespace Machine

/-- The interrupt line level: `(INTFLAG ∩ INTEN) ≠ {}` (60 R203). -/
def State.level (s : State) : Bool :=
  !(s.intflag.inter s.inten).isEmpty

/-- INTFLAG after an increment to `n` with the landed COMP `comp`, MATCHCLR = 0 (40 R102). -/
def flagsFreeRun (f : Flags) (n comp : Word) : Flags :=
  f.union ⟨n == comp, n == 0⟩

/-- INTFLAG after an increment to `n` with the landed COMP `comp`, MATCHCLR = 1: a match sets both
flags, a wrap sets OVF (40 R103). -/
def flagsMatchClear (f : Flags) (n comp : Word) : Flags :=
  f.union ⟨n == comp, n == comp || n == 0⟩

/-- The interrupt source INIT enables: CMP in TICKLESS mode, OVF in PERIODIC mode (43 R186 step 17). -/
def modeFlags : Mode → Flags
  | .tickless => Flags.onlyCmp
  | .periodic => Flags.onlyOvf

end Machine
end Sys2Proof
end

