-- ==== Sys2Proof/Machine/Operands.lean ====
section
/-! DEFINITION. The operand forms and the tick arithmetic: `ticks` as an `s32`, the clamp, the phase and the
wait distance of 41 R141, the elapsed ticks of 41 R143 and R145, software variables, what RD_CTRL shows, and
the words of results. -/

namespace Sys2Proof.Machine

/-- `ticks` read as an `s32` (30 R85). -/
def ticksOf (ticks : Word) : Int :=
  ticks.toInt

/-- The clamp of 41 R141 step 1, on integers: negative values and values above MAX_TICKS become
MAX_TICKS. -/
def clampTicks (cfg : Config) (ticks : Word) : Nat :=
  if ticksOf ticks < 0 ∨ (cfg.maxTicks : Int) < ticksOf ticks then cfg.maxTicks
  else (ticksOf ticks).toNat

/-- `(c −32 m) mod CPT` (00 section 6, 41 R141 step 4). -/
def phase (cfg : Config) (c m : Word) : Nat :=
  (c - m).toNat % cfg.cpt

/-- The rounded distance `r` of 41 R141 step 4. -/
def waitDistance (cfg : Config) (t : Nat) (c m : Word) : Nat :=
  (t * cfg.cpt + phase cfg c m + cfg.cpt - 1) / cfg.cpt * cfg.cpt

/-- `(c −32 m) div CPT` (41 R143, R145). -/
def elapsedTicks (cfg : Config) (c m : Word) : Word :=
  BitVec.ofNat 32 ((c - m).toNat / cfg.cpt)

/-- `Var(V)` (20 R62, 40 R122). -/
def State.var (s : State) : Var → Word
  | .lastMark => s.lastMark
  | .tickCount => s.tickCount
  | .target => s.target

/-- `Var(V) <- v` (20 R62, 40 R123). -/
def State.setVar (s : State) (var : Var) (v : Word) : State :=
  match var with
  | .lastMark => { s with lastMark := v }
  | .tickCount => { s with tickCount := v }
  | .target => { s with target := v }

/-- `zext_32` of one bit (00 R12, 30 R89). -/
def bitWord (b : Bool) : Word :=
  if b then 1 else 0

/-- The word of a kernel-facing operation's result: INIT's OK is 0 and FAIL is 1, QUERY_ELAPSED's is its
`u32`, the others return none (30 R89, 00 R13). -/
def Result.word : Result → Option Word
  | .none => Option.none
  | .ok => some 0
  | .fail => some 1
  | .ticks n => some n

/-- The value RD_CTRL reads: the landed CTRL, with SWRST = 1 while a software reset waits in the slot
(40 R121). -/
def State.ctrlView (s : State) : Ctrl :=
  match s.syncOp with
  | .writeCtrl c => { s.ctrl with swrst := s.ctrl.swrst || c.swrst }
  | _ => s.ctrl

/-- The control value of INIT steps 13 and 18 (43 R186): MODE = COUNT32, PRESCALER = 0, MATCHCLR in
PERIODIC mode only. -/
def initCtrl (mode : Mode) (enable : Bool) : Ctrl :=
  { swrst := false, enable := enable, mode := .count32, matchclr := mode == .periodic, prescaler := 0 }

end Sys2Proof.Machine
end

