-- ==== Sys2Proof/Machine/Ops.lean ====
section
/-! DEFINITION. The shared operations: refusal, the pending latch, taking the interrupt and returning from
it, the synchronisation slot, the frames of running operations, and who may issue what. -/

namespace Sys2Proof.Machine

/-- `LOG <- LOG ++ [e]` (10 R40). -/
def State.logged (e : Event) (s : State) : State :=
  { s with log := s.log ++ [e] }

/-- A refusal: REFUSED <- 1 and LOG gains `refused(reason)` (60 R204). -/
def refuse (reason : Reason) (s : State) : State :=
  { s with refused := true, log := s.log ++ [.refused reason] }

/-- The pending latch: after a step, if CTX = NORMAL and the level is asserted, IRQ_PEND <- 1 (60 R205). -/
def latch (s : State) : State :=
  { s with irqPend := s.irqPend || (s.ctx == .normal && s.level) }

/-! ### Taking the interrupt and returning from it -/

/-- The condition under which interrupt entry is enabled (60 R208). -/
def State.entryEnabled (s : State) : Bool :=
  s.irqPend && s.irqEn && !s.irqLocked && s.ctx == .normal && !s.refused

/-- The handler of the build (43 R182). -/
def handlerOf : Mode → Instr
  | .tickless => .isrT
  | .periodic => .isrP

/-- Interrupt entry: IRQ_PEND <- 0, CTX <- ISR, `seq[ISR]` <- the build's handler at step 1 (60 R208).
Nothing is saved: the normal context's position and locals are frozen (60 R209). -/
def enterInterrupt (s : State) : State :=
  { s with irqPend := false, ctx := .isr, seqIsr := some (Frame.start (handlerOf s.cfg.mode)) }

/-- Return from the handler: CTX <- NORMAL, `seq[ISR]` <- idle, and IRQ_PEND <- 1 if the level is
asserted (43 R185, 60 R211). -/
def returnFromInterrupt (s : State) : State :=
  { s with ctx := .normal, seqIsr := none, irqPend := s.irqPend || s.level }

/-! ### The synchronisation slot -/

/-- Issue a synchronised access: hold (`none`) until the slot is empty, then SYNC_OP <- op and
SYNCBUSY <- 1 (40 R110, R111, R120; 20 R70). -/
def postSync (op : SyncOp) (s : State) : Option State :=
  if s.syncOp = .none then some { s with syncOp := op, syncbusy := true } else none

/-- `hold until SYNC_OP = none` (40 R113); `none` while it holds. -/
def awaitSync (s : State) : Option State :=
  if s.syncOp = .none then some s else none

/-- The software reset (40 R106, 10 R48). -/
def softwareReset (s : State) : State :=
  { s with count := 0, comp := 0, ctrl := resetCtrl, inten := Flags.empty, intflag := Flags.empty,
           syncOp := .none, syncbusy := false, swrstLanded := true }

/-! ### The critical section -/

/-- IRQ_LOCK's key, the previous mask (40 R128). -/
def State.lockKey (s : State) : Word :=
  bitWord s.irqLocked

/-- IRQ_UNLOCK: IRQ_LOCKED <- key[0] (40 R129). -/
def unlockWith (key : Word) (s : State) : State :=
  { s with irqLocked := key.getLsbD 0 }

/-! ### The frame of the call that the context runs -/

/-- The call of the context that runs: `seq[NORMAL]` in normal context, the host's call in the announce
callback in interrupt context (10 R22, 43 R184). DESIGN CHOICE: that call does not stand in `seq[ISR]`, which
the handler keeps (log entry 24). -/
def State.callFrame (s : State) : Option Frame :=
  match s.ctx with
  | .normal => s.seqNormal
  | .isr => s.seqCall

/-- Store the call's position and locals, or end it (`none`); in interrupt context `seq[ISR]` is left to the
handler (DESIGN CHOICE, log entry 24). -/
def State.setCall (s : State) (o : Option Frame) : State :=
  { s with seqNormal := if s.ctx = .normal then o else s.seqNormal,
           seqCall := if s.ctx = .normal then s.seqCall else o }

/-- A kernel-facing operation ends: its position becomes idle and LOG gains `returned(op, v)`
(10 R22, 43 R187); that of a call in the callback is its own (log entry 24). -/
def State.endCall (s : State) (op : Call) (v : Result) : State :=
  (s.setCall none).logged (.returned op v)

/-- A step of a call that may hold: while it holds the frame stays at its step; otherwise `go` makes the
next state (00 R10). -/
def orHold (f : Frame) (s : State) (o : Option State) (go : State → State) : Res :=
  match o with
  | none => .next (s.setCall (some f))
  | some s' => .next (go s')

/-! ### Who may issue what (30 R93, R94; 10 R45; 60 R204, R215)

The order in which the reasons are tried is log entry 8. -/

/-- The announce callback is open: ANNOUNCE is at its step 2 (43 R183). -/
def State.callbackOpen (s : State) : Bool :=
  match s.seqAnn with
  | some f => f.k == 2
  | none => false

/-- A primitive issued directly by a test program: in normal context, whatever that context runs (30 R94;
log entry 9). `none` admits it. -/
def admitPrimitive (s : State) : Option Reason :=
  if s.ctx = .isr then some .wrongIssuer else none

/-- SET_TIMEOUT, QUERY_ELAPSED or IDLE_EXIT of mode `m`. `none` admits it. -/
def admitCall (m : Mode) (s : State) : Option Reason :=
  if s.cfg.mode ≠ m then some .wrongMode
  else if s.ctx = .isr ∧ s.callbackOpen = false then some .wrongIssuer
  else if s.inited = false then some .notInited
  else if s.callFrame.isSome then some .concurrentCall
  else none

/-- INIT: once, in normal context, alone (10 R45, 43 R186, 60 R215; log entry 10). `none` admits it. -/
def admitInit (s : State) : Option Reason :=
  if s.inited then some .initTwice
  else if s.ctx = .isr then some .wrongIssuer
  else if s.seqNormal.isSome then some .concurrentCall
  else none

/-- Perform a kernel-facing operation: on issue, refuse it or start it and perform its step 1 (log entry 5);
for the sequencer, perform the step of the call in flight. -/
def perform (i : Instr) (admission : Option Reason) (body : Frame → State → Res) (s : State) : Res :=
  match s.issuer with
  | .host =>
    match admission with
    | some reason => .next (refuse reason s)
    | none => body (Frame.start i) s
  | .sequencer =>
    match s.callFrame with
    | none => .fault .noSuchStep
    | some f => body f s
  | .program _ => .fault .noSuchStep

/-! ### The primitives that a test program issues directly (30 R94)

They run beside the operation of the normal context: one that cannot end in its first step stays in
`State.prims` until it ends. -/

/-- Store the position of the primitive that is performed: a new one comes last. -/
def State.storePrim (s : State) (f : Frame) : State :=
  { s with prims := match s.issuer with
             | .program n => s.prims.set n f
             | _ => s.prims ++ [f] }

/-- The primitive that is performed ends: it leaves the primitives in flight. -/
def State.endPrim (s : State) : State :=
  { s with prims := match s.issuer with
             | .program n => s.prims.eraseIdx n
             | _ => s.prims }

/-- A primitive issued before the one that is performed still waits for the slot at its step 1, so that
this one's access must wait too (20 R70: issue order). -/
def State.primWaits (s : State) : Bool :=
  (match s.issuer with
    | .program n => s.prims.take n
    | _ => s.prims).any (fun f => f.k == 1)

/-- `o`, or `none` while an earlier primitive waits for the slot. -/
def State.inOrder (s : State) (o : Option State) : Option State :=
  if s.primWaits then none else o

/-- A step of a primitive that may hold: while it holds its frame stays at its step; otherwise `go` makes
the next state (00 R10). -/
def orWait (f : Frame) (s : State) (o : Option State) (go : State → State) : Res :=
  match o with
  | none => .next (s.storePrim f)
  | some s' => .next (go s')

/-- A primitive of one step with effect `eff`, performed at once. -/
def oneStep (eff : State → State) (f : Frame) (s : State) : Res :=
  match f.k with
  | 1 => .next (eff s).endPrim
  | _ => .fault .noSuchStep

/-- A primitive of one step with effect `eff`, which holds while that is `none` or an earlier primitive
waits. -/
def waitStep (eff : State → Option State) (f : Frame) (s : State) : Res :=
  match f.k with
  | 1 => orWait f s (s.inOrder (eff s)) State.endPrim
  | _ => .fault .noSuchStep

/-- Perform a primitive that a test program issues directly: on issue, refuse it or perform its step 1 (log
entry 5); for one in flight, perform the step at which it stands. -/
def performPrimitive (i : Instr) (body : Frame → State → Res) (s : State) : Res :=
  match s.issuer with
  | .host =>
    match admitPrimitive s with
    | some reason => .next (refuse reason s)
    | none => body (Frame.start i) s
  | .program n =>
    match s.prims[n]? with
    | none => .fault .noSuchStep
    | some f => body f s
  | .sequencer => .fault .noSuchStep

/-- A read primitive: the value goes to the test program's local `dest` (30 R89). -/
def performRead (i : Instr) (value : State → Word) (s : State) : Res :=
  performPrimitive i (oneStep (fun s => { s with dest := value s })) s

end Sys2Proof.Machine
end

