-- ==== Sys2Proof/Machine/Agents.lean ====
section
/-! DEFINITION. The agents that act on their own: the counter (40 R101 to R104), the synchronisation unit
(40 R105), interrupt entry (60 R208), and the host's return from the announce callback (43 R184). An agent
that has no step is given back the state unchanged (log entry 6). -/

namespace Sys2Proof.Machine

/-- One cycle of the counter clock with MATCHCLR = 0 (40 R102). -/
def countFreeRun (s : State) : State :=
  { s with count := s.count + 1, intflag := flagsFreeRun s.intflag (s.count + 1) s.comp }

/-- One cycle of the counter clock with MATCHCLR = 1: a match clears the counter (40 R103). -/
def countMatchClear (s : State) : State :=
  { s with count := if s.count + 1 = s.comp then 0 else s.count + 1,
           intflag := flagsMatchClear s.intflag (s.count + 1) s.comp }

/-- A counter step before the first software reset has landed: COUNT and INTFLAG take any value, whatever
CTRL holds (70 R231). The values are free (log entry 3). -/
def countUnspecified (s : State) : State :=
  { s with count := Config.launchCount s.fresh, intflag := Config.launchFlags s.fresh,
           fresh := s.fresh + 1 }

/-- The counter agent (40 R101): it has a step exactly when CTRL.ENABLE = 1. -/
def counterAgent (s : State) : State :=
  if s.swrstLanded then
    if s.ctrl.enable then
      if s.ctrl.matchclr then countMatchClear s else countFreeRun s
    else s
  else countUnspecified s

/-- The synchronisation unit: it lands the slot's operation and frees the slot (40 R105). -/
def syncUnit (s : State) : State :=
  match s.syncOp with
  | .none => s
  | .writeComp v => { s with comp := v, syncOp := .none, syncbusy := false }
  | .writeCtrl c =>
    if c.swrst then softwareReset s else { s with ctrl := c, syncOp := .none, syncbusy := false }
  | .readCount => { s with countSnap := s.count, syncOp := .none, syncbusy := false }

/-- Interrupt entry, when it is enabled (60 R208). -/
def interruptEntry (s : State) : State :=
  if s.entryEnabled then enterInterrupt s else s

/-- The host returns from the announce callback: possible while ANNOUNCE is at its step 2 and no call is in
flight there; the handler then continues (43 R183, R184). -/
def hostReturns (s : State) : State :=
  if s.callbackOpen ∧ s.seqCall = none then { s with seqAnn := none } else s

end Sys2Proof.Machine
end

