-- ==== Sys2Proof/Machine/Interrupt.lean ====
section
/-! DEFINITION. The primitives of the interrupt controller and of the mask (40 R124 to R129). -/

namespace Sys2Proof.Machine

/-- NVIC_SETPEND: IRQ_PEND <- 1 (40 R124). -/
def execNvicSetpend (s : State) : Res :=
  performPrimitive .nvicSetpend (oneStep (fun s => { s with irqPend := true })) s

/-- NVIC_CLRPEND: IRQ_PEND <- 0 (40 R125). -/
def execNvicClrpend (s : State) : Res :=
  performPrimitive .nvicClrpend (oneStep (fun s => { s with irqPend := false })) s

/-- NVIC_ENABLE: IRQ_EN <- 1 (40 R126). -/
def execNvicEnable (s : State) : Res :=
  performPrimitive .nvicEnable (oneStep (fun s => { s with irqEn := true })) s

/-- NVIC_DISABLE: IRQ_EN <- 0 (40 R127). -/
def execNvicDisable (s : State) : Res :=
  performPrimitive .nvicDisable (oneStep (fun s => { s with irqEn := false })) s

/-- IRQ_LOCK: key <- the previous mask, IRQ_LOCKED <- 1 (40 R128). -/
def execIrqLock (s : State) : Res :=
  performPrimitive .irqLock (oneStep (fun s => { s with dest := s.lockKey, irqLocked := true })) s

/-- The step of IRQ_UNLOCK (40 R129): a key other than 0 or 1 is refused (30 R92). -/
def irqUnlockStep (key : Word) (f : Frame) (s : State) : Res :=
  if keyOk key then oneStep (unlockWith key) f s
  else .next (refuse .field s)

/-- IRQ_UNLOCK (40 R129). -/
def execIrqUnlock (key : Word) (s : State) : Res :=
  performPrimitive (.irqUnlock key) (irqUnlockStep key) s

end Sys2Proof.Machine
end

