-- ==== Sys2Proof/Machine/Shared.lean ====
section
/-! DEFINITION. What the two modes share: ANNOUNCE, IRET and INIT (43 R183, R185, R186). -/

namespace Sys2Proof.Machine

/-- ANNOUNCE (43 R183): step 1 logs `announce(n)`; step 2 holds, the host callback being open, until the
host returns (turn `hostReturn`). Issued by the host it is refused (30 R94). -/
def execAnnounce (n : Word) (s : State) : Res :=
  match s.issuer with
  | .host => .next (refuse .wrongIssuer s)
  | .sequencer =>
    match s.seqAnn with
    | none => .fault .noSuchStep
    | some f =>
      match f.k with
      | 1 => .next { s with log := s.log ++ [.announce n], seqAnn := some { f with k := 2 } }
      | 2 => .next s
      | _ => .fault .noSuchStep
  | .program _ => .fault .noSuchStep

/-- The handler's step that announces `n`: the handler's frame becomes `f`, and ANNOUNCE performs its
step 1 (log entry 17). -/
def callAnnounce (n : Word) (f : Frame) (s : State) : Res :=
  execAnnounce n { s with seqIsr := some f, seqAnn := some (Frame.start (.announce n)) }

/-- IRET (43 R185). Outside a handler it is refused (30 R94). -/
def execIret (s : State) : Res :=
  match s.issuer, s.ctx with
  | .host, _ => .next (refuse .wrongIssuer s)
  | .sequencer, .normal => .next (refuse .wrongIssuer s)
  | .sequencer, .isr => .next (returnFromInterrupt s)
  | .program _, _ => .fault .noSuchStep

/-- The steps of INIT, in the normative order of 43 R186 (70 R232). -/
def initStep (f : Frame) (s : State) : Res :=
  let goto (k : Nat) (s' : State) : State := s'.setCall (some { f with k := k })
  match f.k with
  | 1 => .next (goto 2 { s with lastMark := 0 })
  | 2 => .next (goto 3 { s with tickCount := 0 })
  | 3 => .next (goto 4 { s with target := 0 })
  | 4 => .next (goto 5 { s with irqEn := false })
  | 5 => .next (goto 6 { s with inten := s.inten.diff Flags.both })
  | 6 => .next (goto 7 { s with intflag := s.intflag.diff Flags.both })
  | 7 => .next (goto 8 { s with irqPend := false })
  | 8 => orHold f s (awaitSync s) (goto 9)
  | 9 => orHold f s (postSync (.writeCtrl resetCtrl) s) (goto 10)
  | 10 => orHold f s (awaitSync s) (goto 11)
  | 11 => orHold f s (postSync (.writeCtrl { resetCtrl with swrst := true }) s) (goto 12)
  | 12 => orHold f s (awaitSync s) (goto 13)
  | 13 => orHold f s (postSync (.writeCtrl (initCtrl s.cfg.mode false)) s) (goto 14)
  | 14 => orHold f s (awaitSync s) (goto 15)
  | 15 =>
    match s.cfg.mode with
    | .periodic => orHold f s (postSync (.writeComp (BitVec.ofNat 32 s.cfg.cpt)) s) (goto 16)
    | .tickless => .next (goto 16 s)
  | 16 => orHold f s (awaitSync s) (goto 17)
  | 17 => .next (goto 18 { s with inten := s.inten.union (modeFlags s.cfg.mode) })
  | 18 => orHold f s (postSync (.writeCtrl (initCtrl s.cfg.mode true)) s) (goto 19)
  | 19 => orHold f s (awaitSync s) (goto 20)
  | 20 => .next (goto 21 { s with irqEn := true })
  | 21 => .next ({ s with inited := true }.endCall .init .ok)
  | _ => .fault .noSuchStep

/-- INIT (43 R186). -/
def execInit (s : State) : Res :=
  perform .init (admitInit s) initStep s

end Sys2Proof.Machine
end

