-- ==== Sys2Proof/Machine/Periodic.lean ====
section
/-! DEFINITION. The Periodic Timer Core (42 R161 to R164). -/

namespace Sys2Proof.Machine

/-- The steps of SET_TIMEOUT.P (42 R161). -/
def setTimeoutPStep (ticks : Word) (f : Frame) (s : State) : Res :=
  match f.k with
  | 1 =>
    if ticksOf ticks = 0 then .next ({ s with irqPend := true }.endCall .setTimeoutP .none)
    else .next ({ s with irqLocked := true }.setCall (some { f with k := 2, key := s.lockKey }))
  | 2 => .next (s.setCall (some { f with k := 3, tick := s.tickCount }))
  | 3 =>
    if ticksOf ticks < 0 then .next ({ s with target := f.tick }.setCall (some { f with k := 4 }))
    else .next ({ s with target := f.tick + ticks }.setCall (some { f with k := 4 }))
  | 4 => .next ((unlockWith f.key s).endCall .setTimeoutP .none)
  | _ => .fault .noSuchStep

/-- SET_TIMEOUT.P (42 R161). No step reads `is_idle` (60 R219). -/
def execSetTimeoutP (ticks : Word) (isIdle : Bool) (s : State) : Res :=
  perform (.setTimeoutP ticks isIdle) (admitCall .periodic s) (setTimeoutPStep ticks) s

/-- The steps of QUERY_ELAPSED.P (42 R162). -/
def queryElapsedPStep (f : Frame) (s : State) : Res :=
  match f.k with
  | 1 => .next (s.setCall (some { f with k := 2, m := s.lastMark }))
  | 2 => .next (s.endCall .queryElapsedP (.ticks (s.tickCount - f.m)))
  | _ => .fault .noSuchStep

/-- QUERY_ELAPSED.P (42 R162). -/
def execQueryElapsedP (s : State) : Res :=
  perform .queryElapsedP (admitCall .periodic s) queryElapsedPStep s

/-- The step of IDLE_EXIT.P (42 R163). -/
def idleExitPStep (f : Frame) (s : State) : Res :=
  match f.k with
  | 1 => .next (s.endCall .idleExitP .none)
  | _ => .fault .noSuchStep

/-- IDLE_EXIT.P (42 R163). -/
def execIdleExitP (s : State) : Res :=
  perform .idleExitP (admitCall .periodic s) idleExitPStep s

/-- The steps of ISR.P (42 R164; steps 1 and 2 are the shared frame of 43 R181). -/
def isrPStep (f : Frame) (s : State) : Res :=
  match f.k with
  | 1 => .next { s with seqIsr := some { f with k := 2, s := s.intflag } }
  | 2 => .next { s with intflag := s.intflag.diff f.s,
                        seqIsr := some { f with k := if f.s.isEmpty then 7 else 3 } }
  | 3 => .next { s with tickCount := s.tickCount + 1,
                        seqIsr := some { f with k := 4, tick := s.tickCount + 1 } }
  | 4 => .next { s with seqIsr := some { f with k := if f.tick = s.target then 5 else 8 } }
  | 5 => callAnnounce (f.tick - s.lastMark) { f with k := 6, m := s.lastMark } s
  | 6 => .next { s with lastMark := f.tick, seqIsr := some { f with k := 8 } }
  | 7 => callAnnounce 0 { f with k := 8 } s
  | 8 => execIret s
  | _ => .fault .noSuchStep

/-- ISR.P (42 R164). Issued by the host it is refused (30 R94). -/
def execIsrP (s : State) : Res :=
  match s.issuer with
  | .host => .next (refuse .wrongIssuer s)
  | .sequencer =>
    match s.seqIsr with
    | none => .fault .noSuchStep
    | some f => isrPStep f s
  | .program _ => .fault .noSuchStep

end Sys2Proof.Machine
end

