-- ==== Sys2Proof/Machine/Peripheral.lean ====
section
/-! DEFINITION. The primitives of the counter, the comparator, the interrupt status and enables, and the
control register (40 R110 to R121). -/

namespace Sys2Proof.Machine

/-- The two steps of RD_COUNT (40 R110). -/
def rdCountStep (f : Frame) (s : State) : Res :=
  match f.k with
  | 1 => orWait f s (s.inOrder (postSync .readCount s)) (fun s' => s'.storePrim { f with k := 2 })
  | 2 => orWait f s (awaitSync s) (fun s' => ({ s' with dest := s'.countSnap }).endPrim)
  | _ => .fault .noSuchStep

/-- RD_COUNT (40 R110). -/
def execRdCount (s : State) : Res :=
  performPrimitive .rdCount rdCountStep s

/-- WR_COMP (40 R111). -/
def execWrComp (value : Word) (s : State) : Res :=
  performPrimitive (.wrComp value) (waitStep (postSync (.writeComp value))) s

/-- RD_COMP (40 R112). -/
def execRdComp (s : State) : Res :=
  performRead .rdComp (fun s => s.comp) s

/-- WAIT_SYNC (40 R113). -/
def execWaitSync (s : State) : Res :=
  performPrimitive .waitSync (waitStep awaitSync) s

/-- RD_SYNCBUSY (40 R114). -/
def execRdSyncbusy (s : State) : Res :=
  performRead .rdSyncbusy (fun s => bitWord s.syncbusy) s

/-- RD_INTFLAG (40 R115): no flag is cleared. -/
def execRdIntflag (s : State) : Res :=
  performRead .rdIntflag (fun s => s.intflag.toWord) s

/-- WR_INTFLAG: INTFLAG <- INTFLAG \ f (40 R116). -/
def execWrIntflag (flags : Flags) (s : State) : Res :=
  performPrimitive (.wrIntflag flags) (oneStep (fun s => { s with intflag := s.intflag.diff flags })) s

/-- WR_INTENSET: INTEN <- INTEN ∪ f (40 R117). -/
def execWrIntenset (flags : Flags) (s : State) : Res :=
  performPrimitive (.wrIntenset flags) (oneStep (fun s => { s with inten := s.inten.union flags })) s

/-- WR_INTENCLR: INTEN <- INTEN \ f (40 R118). -/
def execWrIntenclr (flags : Flags) (s : State) : Res :=
  performPrimitive (.wrIntenclr flags) (oneStep (fun s => { s with inten := s.inten.diff flags })) s

/-- RD_INTEN (40 R119). -/
def execRdInten (s : State) : Res :=
  performRead .rdInten (fun s => s.inten.toWord) s

/-- The step of WR_CTRL (40 R120): a MODE other than COUNT32 or a nonzero PRESCALER is refused. -/
def wrCtrlStep (value : Ctrl) (f : Frame) (s : State) : Res :=
  if value.modelled then waitStep (postSync (.writeCtrl value)) f s
  else .next (refuse .ctrlUnmodelled s)

/-- WR_CTRL (40 R120). -/
def execWrCtrl (value : Ctrl) (s : State) : Res :=
  performPrimitive (.wrCtrl value) (wrCtrlStep value) s

/-- RD_CTRL (40 R121). -/
def execRdCtrl (s : State) : Res :=
  performRead .rdCtrl (fun s => s.ctrlView.toWord) s

end Sys2Proof.Machine
end

