-- ==== Sys2Proof/Machine/Tickless.lean ====
section
/-! DEFINITION. The Tickless Timer Core (41 R141 to R145). -/

namespace Sys2Proof.Machine

/-- The steps of SET_TIMEOUT.T (41 R141). -/
def setTimeoutTStep (ticks : Word) (f : Frame) (s : State) : Res :=
  match f.k with
  | 1 => .next (s.setCall (some { f with k := 2, t := clampTicks s.cfg ticks, m := s.lastMark }))
  | 2 => orHold f s (postSync .readCount s) (fun s' => s'.setCall (some { f with k := 3 }))
  | 3 => orHold f s (awaitSync s) (fun s' => s'.setCall (some { f with k := 4, c := s'.countSnap }))
  | 4 =>
    if waitDistance s.cfg f.t f.c f.m < s.cfg.leadThreshold then
      .next ({ s with irqPend := true }.endCall .setTimeoutT .none)
    else
      .next (s.setCall (some { f with k := 5, r := waitDistance s.cfg f.t f.c f.m }))
  | 5 => orHold f s (awaitSync s) (fun s' => s'.setCall (some { f with k := 6 }))
  | 6 => orHold f s (postSync (.writeComp (f.c + BitVec.ofNat 32 f.r)) s)
      (fun s' => s'.endCall .setTimeoutT .none)
  | _ => .fault .noSuchStep

/-- SET_TIMEOUT.T (41 R141). No step reads `is_idle` (60 R219). -/
def execSetTimeoutT (ticks : Word) (isIdle : Bool) (s : State) : Res :=
  perform (.setTimeoutT ticks isIdle) (admitCall .tickless s) (setTimeoutTStep ticks) s

/-- The steps of QUERY_ELAPSED.T (41 R143). -/
def queryElapsedTStep (f : Frame) (s : State) : Res :=
  match f.k with
  | 1 => .next (s.setCall (some { f with k := 2, m := s.lastMark }))
  | 2 => orHold f s (postSync .readCount s) (fun s' => s'.setCall (some { f with k := 3 }))
  | 3 => orHold f s (awaitSync s) (fun s' => s'.setCall (some { f with k := 4, c := s'.countSnap }))
  | 4 => .next (s.endCall .queryElapsedT (.ticks (elapsedTicks s.cfg f.c f.m)))
  | _ => .fault .noSuchStep

/-- QUERY_ELAPSED.T (41 R143). -/
def execQueryElapsedT (s : State) : Res :=
  perform .queryElapsedT (admitCall .tickless s) queryElapsedTStep s

/-- The step of IDLE_EXIT.T (41 R144). -/
def idleExitTStep (f : Frame) (s : State) : Res :=
  match f.k with
  | 1 => .next (s.endCall .idleExitT .none)
  | _ => .fault .noSuchStep

/-- IDLE_EXIT.T (41 R144). -/
def execIdleExitT (s : State) : Res :=
  perform .idleExitT (admitCall .tickless s) idleExitTStep s

/-- The steps of ISR.T (41 R145; steps 1 and 2 are the shared frame of 43 R181). -/
def isrTStep (f : Frame) (s : State) : Res :=
  match f.k with
  | 1 => .next { s with seqIsr := some { f with k := 2, s := s.intflag } }
  | 2 => .next { s with intflag := s.intflag.diff f.s, seqIsr := some { f with k := 3 } }
  | 3 =>
    match postSync .readCount s with
    | none => .next s
    | some s' => .next { s' with seqIsr := some { f with k := 4 } }
  | 4 =>
    match awaitSync s with
    | none => .next s
    | some s' => .next { s' with seqIsr := some { f with k := 5, c := s'.countSnap } }
  | 5 => .next { s with seqIsr := some { f with m := s.lastMark, k := if f.c = s.lastMark then 8 else 6 } }
  | 6 => callAnnounce (elapsedTicks s.cfg f.c f.m) { f with k := 7 } s
  | 7 => .next { s with lastMark := f.c, seqIsr := some { f with k := 9 } }
  | 8 =>
    if s.cfg.announceZeroOnEqual then callAnnounce 0 { f with k := 9 } s
    else .next { s with seqIsr := some { f with k := 9 } }
  | 9 => execIret s
  | _ => .fault .noSuchStep

/-- ISR.T (41 R145). Issued by the host it is refused (30 R94). -/
def execIsrT (s : State) : Res :=
  match s.issuer with
  | .host => .next (refuse .wrongIssuer s)
  | .sequencer =>
    match s.seqIsr with
    | none => .fault .noSuchStep
    | some f => isrTStep f s
  | .program _ => .fault .noSuchStep

end Sys2Proof.Machine
end

