-- ==== Sys2Proof/Machine/Variables.lean ====
section
/-! DEFINITION. The primitives of the software variables (40 R122, R123). -/

namespace Sys2Proof.Machine

/-- LD_VAR (40 R122). -/
def execLdVar (var : Var) (s : State) : Res :=
  performRead (.ldVar var) (fun s => s.var var) s

/-- ST_VAR (40 R123). -/
def execStVar (var : Var) (value : Word) (s : State) : Res :=
  performPrimitive (.stVar var value) (oneStep (fun s => s.setVar var value)) s

end Sys2Proof.Machine
end

