-- ==== Sys2Proof/Machine/Dispatch.lean ====
section
/-! DEFINITION. One arm per operation of the opcode table. -/

namespace Sys2Proof.Machine

def exec (i : Instr) (s : State) : Host.Outcome State Fault Refusal :=
  match i with
  | .init => Sys2Proof.Machine.execInit s
  | .setTimeoutT ticks isIdle => Sys2Proof.Machine.execSetTimeoutT ticks isIdle s
  | .setTimeoutP ticks isIdle => Sys2Proof.Machine.execSetTimeoutP ticks isIdle s
  | .queryElapsedT => Sys2Proof.Machine.execQueryElapsedT s
  | .queryElapsedP => Sys2Proof.Machine.execQueryElapsedP s
  | .idleExitT => Sys2Proof.Machine.execIdleExitT s
  | .idleExitP => Sys2Proof.Machine.execIdleExitP s
  | .isrT => Sys2Proof.Machine.execIsrT s
  | .isrP => Sys2Proof.Machine.execIsrP s
  | .announce n => Sys2Proof.Machine.execAnnounce n s
  | .iret => Sys2Proof.Machine.execIret s
  | .rdCount => Sys2Proof.Machine.execRdCount s
  | .wrComp value => Sys2Proof.Machine.execWrComp value s
  | .rdComp => Sys2Proof.Machine.execRdComp s
  | .waitSync => Sys2Proof.Machine.execWaitSync s
  | .rdSyncbusy => Sys2Proof.Machine.execRdSyncbusy s
  | .rdIntflag => Sys2Proof.Machine.execRdIntflag s
  | .wrIntflag flags => Sys2Proof.Machine.execWrIntflag flags s
  | .wrIntenset flags => Sys2Proof.Machine.execWrIntenset flags s
  | .wrIntenclr flags => Sys2Proof.Machine.execWrIntenclr flags s
  | .rdInten => Sys2Proof.Machine.execRdInten s
  | .wrCtrl value => Sys2Proof.Machine.execWrCtrl value s
  | .rdCtrl => Sys2Proof.Machine.execRdCtrl s
  | .nvicSetpend => Sys2Proof.Machine.execNvicSetpend s
  | .nvicClrpend => Sys2Proof.Machine.execNvicClrpend s
  | .nvicEnable => Sys2Proof.Machine.execNvicEnable s
  | .nvicDisable => Sys2Proof.Machine.execNvicDisable s
  | .irqLock => Sys2Proof.Machine.execIrqLock s
  | .irqUnlock key => Sys2Proof.Machine.execIrqUnlock key s
  | .ldVar var => Sys2Proof.Machine.execLdVar var s
  | .stVar var value => Sys2Proof.Machine.execStVar var value s

end Sys2Proof.Machine
end

