-- ==== Sys2Proof/Machine/Turns.lean ====
section
/-! DEFINITION. One turn of the schedule: an issued word is decoded and performed, the sequencer performs
the next step of the running operation, or another agent steps. Every turn ends with the pending latch of
60 R205. -/

namespace Sys2Proof.Machine

/-- The reason with which a word that spells no operation is refused (30 R86, R91, R92). -/
def reasonOf : DecodeError → Reason
  | .reservedBits => .reservedBits
  | .unassigned => .unassigned
  | .field => .field

/-- The host, or a test program, issues an operation word: it is decoded and performed (30 R94, R98). -/
def issueWord (w : OpWord) (s : State) : Res :=
  match decode w with
  | .error e => .next (refuse (reasonOf e) s)
  | .ok i => exec i { s with issuer := .host }

/-- The operation whose step the processor performs next: in normal context that of `seq[NORMAL]`; in
interrupt context the host's call in the callback, else the ANNOUNCE in progress, else the handler. -/
def State.currentOp (s : State) : Option Instr :=
  match s.ctx with
  | .normal => s.seqNormal.map (·.op)
  | .isr =>
    match s.seqCall, s.seqAnn with
    | some f, _ => some f.op
    | none, some f => some f.op
    | none, none => s.seqIsr.map (·.op)

/-- The processor performs the next numbered step of the context that runs; an idle context has none. -/
def proceed (s : State) : Res :=
  match s.currentOp with
  | none => .next s
  | some i => exec i { s with issuer := .sequencer }

/-- The operation of the `n`-th of a test program's primitives in flight; in interrupt context it does not
advance (10 R39). -/
def State.programOp (s : State) (n : Nat) : Option Instr :=
  match s.ctx with
  | .normal => s.prims[n]?.map (·.op)
  | .isr => none

/-- The `n`-th of a test program's primitives in flight performs its next step. -/
def programStep (n : Nat) (s : State) : Res :=
  match s.programOp n with
  | none => .next s
  | some i => exec i { s with issuer := .program n }

/-- The latch after a turn that answers a next state (60 R205). -/
def settle : Res → Res
  | .next s => .next (latch s)
  | .fault r => .fault r
  | .refused r => .refused r

/-- One turn. -/
def takeTurn (t : Turn) (s : State) : Res :=
  match t with
  | .issue w => settle (issueWord w s)
  | .proc => settle (proceed s)
  | .program n => settle (programStep n s)
  | .counter => settle (.next (counterAgent s))
  | .sync => settle (.next (syncUnit s))
  | .enter => settle (.next (interruptEntry s))
  | .hostReturn => settle (.next (hostReturns s))

/-- The next turn, and the state in which it is taken: the head of the list of turns, or, past its end, the
free value `Config.freeTurn` (log entry 4). -/
def nextTurn (s : State) : Turn × State :=
  match s.sched with
  | t :: ts => (t, { s with sched := ts })
  | [] => (Config.freeTurn s.fresh, { s with fresh := s.fresh + 1 })

/-- The word that the table's number spells: bits above `nbits` are 0 (log entry 18). -/
def tableWord (nbits w : Nat) : OpWord :=
  BitVec.ofNat 64 (w % 2 ^ nbits)

/-- The next turn issues the word `w` (log entry 14). -/
def State.issuing (w : OpWord) (s : State) : State :=
  { s with sched := .issue w :: s.sched }

/-- What a step does: nothing when REFUSED = 1 (10 R46); the refusal CONFIG_INVALID when the build parameters
break their constraints (60 R204, log entry 20); otherwise the next turn. -/
def stepTurn (s : State) : Res :=
  if s.refused then .refused .halted
  else if s.cfg.valid then takeTurn (nextTurn s).1 (nextTurn s).2
  else .next (refuse .configInvalid s)

end Sys2Proof.Machine
end

