-- ==== Sys2Proof/Machine/Step.lean ====
section
/-! DEFINITION. The step function and the placing of the next instruction. -/

namespace Sys2Proof.Machine

/-- One step of the machine. -/
def step (s : State) : Host.Outcome State Fault Refusal :=
  stepTurn s

/-- `s` with the instruction of the table's number `w` placed where the next step takes it: the next turn
issues its word (log entry 14). -/
def State.withFetchWord (s : State) (nbits w : Nat) : State :=
  s.issuing (tableWord nbits w)

end Sys2Proof.Machine
end

