-- ==== Sys2Proof/Safety.lean ====
section
/-! DEFINITION. The terms in which claims about the machine are stated: runs under a schedule, the moments at
which an operation is issued or continued, the machine's invariant, the phases of INIT, the named
premises of 70 R239, R241 and R242, and weak fairness. -/

namespace Sys2Proof.Machine

/-! ### Runs -/

/-- Give the machine the turns `ts`, one after another, whatever its own schedule holds. -/
def runTurns : List Turn → State → Res
  | [], s => .next s
  | t :: ts, s =>
    match step { s with sched := t :: s.sched } with
    | .next s' => runTurns ts s'
    | .fault r => .fault r
    | .refused r => .refused r

/-- The machine is running: not refused, and its build parameters meet their constraints. -/
abbrev State.Running (s : State) : Prop :=
  s.refused = false ∧ s.cfg.valid = true

/-- The operation that the next step performs, if its turn performs one. -/
def State.performed (s : State) : Option Instr :=
  match (nextTurn s).1 with
  | .issue w => (decode w).toOption
  | .proc => (nextTurn s).2.currentOp
  | .program n => (nextTurn s).2.programOp n
  | _ => none

/-! ### When an operation is issued or continued -/

/-- The host may issue INIT: normal context, idle (30 R94, 60 R215). -/
abbrev State.Idle (s : State) : Prop :=
  s.issuer = .host ∧ s.ctx = .normal ∧ s.seqNormal = none

/-- A test program may issue a primitive: normal context, whatever it runs (30 R94). -/
abbrev State.AcceptsPrimitive (s : State) : Prop :=
  s.issuer = .host ∧ s.ctx = .normal

/-- The `n`-th primitive in flight, whose frame is `f`, is to perform step `k`. -/
abbrev State.PrimitiveAt (s : State) (n : Nat) (f : Frame) (k : Nat) : Prop :=
  s.issuer = .program n ∧ s.prims[n]? = some f ∧ f.k = k

/-- The primitive that is performed may access the slot: it is empty, and no earlier primitive waits for it. -/
abbrev State.SlotFree (s : State) : Prop :=
  s.syncOp = .none ∧ s.primWaits = false

/-- The host may issue a call of mode `m`: initialised, and either in idle normal context or in an open
announce callback with no call in flight (30 R93, R94; 10 R45; 43 R184; 60 R215). -/
abbrev State.AcceptsCall (m : Mode) (s : State) : Prop :=
  s.issuer = .host ∧ s.cfg.mode = m ∧ s.inited = true ∧
    ((s.ctx = .normal ∧ s.seqNormal = none) ∨
      (s.ctx = .isr ∧ s.callbackOpen = true ∧ s.seqCall = none))

/-- The sequencer is to perform step `k` of the call of the context that runs, whose frame is `f`. -/
abbrev State.CallAt (s : State) (f : Frame) (k : Nat) : Prop :=
  s.issuer = .sequencer ∧ s.callFrame = some f ∧ f.k = k

/-- The sequencer is to perform step `k` of the handler, whose frame is `f`. -/
abbrev State.HandlerAt (s : State) (f : Frame) (k : Nat) : Prop :=
  s.issuer = .sequencer ∧ s.ctx = .isr ∧ s.seqIsr = some f ∧ f.k = k

/-! ### The machine's invariant -/

/-- How many numbered steps an operation has. -/
def stepsOf : Instr → Nat
  | .init => 21
  | .setTimeoutT _ _ => 6
  | .setTimeoutP _ _ => 4
  | .queryElapsedT => 4
  | .queryElapsedP => 2
  | .idleExitT => 1
  | .idleExitP => 1
  | .isrT => 9
  | .isrP => 8
  | .announce _ => 2
  | .iret => 1
  | .rdCount => 2
  | .wrComp _ => 1
  | .rdComp => 1
  | .waitSync => 1
  | .rdSyncbusy => 1
  | .rdIntflag => 1
  | .wrIntflag _ => 1
  | .wrIntenset _ => 1
  | .wrIntenclr _ => 1
  | .rdInten => 1
  | .wrCtrl _ => 1
  | .rdCtrl => 1
  | .nvicSetpend => 1
  | .nvicClrpend => 1
  | .nvicEnable => 1
  | .nvicDisable => 1
  | .irqLock => 1
  | .irqUnlock _ => 1
  | .ldVar _ => 1
  | .stVar _ _ => 1

/-- Who may issue an operation (30 R90, R94). -/
inductive Role where
  /-- INIT: the host, in normal context. -/
  | init
  /-- SET_TIMEOUT, QUERY_ELAPSED and IDLE_EXIT: the host, in normal context or in an announce callback. -/
  | call
  /-- ISR, ANNOUNCE and IRET: interrupt entry and the handler. -/
  | handler
  /-- The primitives: a test program, in normal context. -/
  | primitive
deriving DecidableEq, Repr

/-- The role of each operation (30 R90). -/
def roleOf : Instr → Role
  | .init => .init
  | .setTimeoutT _ _ => .call
  | .setTimeoutP _ _ => .call
  | .queryElapsedT => .call
  | .queryElapsedP => .call
  | .idleExitT => .call
  | .idleExitP => .call
  | .isrT => .handler
  | .isrP => .handler
  | .announce _ => .handler
  | .iret => .handler
  | .rdCount => .primitive
  | .wrComp _ => .primitive
  | .rdComp => .primitive
  | .waitSync => .primitive
  | .rdSyncbusy => .primitive
  | .rdIntflag => .primitive
  | .wrIntflag _ => .primitive
  | .wrIntenset _ => .primitive
  | .wrIntenclr _ => .primitive
  | .rdInten => .primitive
  | .wrCtrl _ => .primitive
  | .rdCtrl => .primitive
  | .nvicSetpend => .primitive
  | .nvicClrpend => .primitive
  | .nvicEnable => .primitive
  | .nvicDisable => .primitive
  | .irqLock => .primitive
  | .irqUnlock _ => .primitive
  | .ldVar _ => .primitive
  | .stVar _ _ => .primitive

/-- The frame stands at a step of its operation (10 R22). -/
def Frame.inRange (f : Frame) : Prop :=
  1 ≤ f.k ∧ f.k ≤ stepsOf f.op

/-- The invariant that every step keeps. -/
structure State.Inv (s : State) : Prop where
  /-- SYNCBUSY = 1 exactly when SYNC_OP ≠ none (10 R34). -/
  busy : s.syncbusy = true ↔ s.syncOp ≠ .none
  /-- Only a modelled control value waits in the slot (40 R120). -/
  slot : ∀ c, s.syncOp = .writeCtrl c → c.modelled = true
  /-- Once a software reset has landed, MODE is COUNT32, PRESCALER is 0 and SWRST is 0 (10 R26, R28, R29). -/
  ctrl : s.swrstLanded = true → s.ctrl.modelled = true ∧ s.ctrl.swrst = false
  /-- `seq[NORMAL]` stands at a step of a kernel-facing operation (10 R22, 30 R94). -/
  normal : ∀ f, s.seqNormal = some f → f.inRange ∧ (roleOf f.op = .init ∨ roleOf f.op = .call)
  /-- In normal context no handler, no ANNOUNCE and no callback call is running (10 R39). -/
  outside : s.ctx = .normal → s.seqIsr = none ∧ s.seqAnn = none ∧ s.seqCall = none
  /-- In interrupt context the build's handler is at one of its steps (43 R182, 60 R208). -/
  handler : s.ctx = .isr → ∃ f, s.seqIsr = some f ∧ f.inRange ∧ f.op = handlerOf s.cfg.mode
  /-- An ANNOUNCE in progress is at its step 2, the callback open (43 R183). -/
  announcing : ∀ f, s.seqAnn = some f → f.k = 2 ∧ ∃ n, f.op = .announce n
  /-- A call in the callback is one that 43 R184 admits, at one of its steps, while the callback is open. -/
  call : ∀ f, s.seqCall = some f → s.seqAnn ≠ none ∧ f.inRange ∧ roleOf f.op = .call
  /-- A test program's primitives in flight are primitives, at one of their steps (30 R94). -/
  prims : ∀ f ∈ s.prims, f.inRange ∧ roleOf f.op = .primitive

/-! ### The phases of INIT -/

/-- COMP after INIT step 15 has landed (43 R186). -/
def initComp (cfg : Config) : Word :=
  match cfg.mode with
  | .tickless => 0
  | .periodic => BitVec.ofNat 32 cfg.cpt

/-- The peripheral is as the software reset left it, but for CTRL (10 R48). -/
def State.FreshPeripheral (s : State) : Prop :=
  s.swrstLanded = true ∧ s.count = 0 ∧ s.intflag = Flags.empty ∧ s.irqPend = false

/-- What holds while the normal context is at step `f.k` of INIT, up to step 20, the interrupt controller
disabled (43 R186, 70 R232): each clause says what the steps before `f.k` have established. -/
structure State.InitPhase (s : State) (f : Frame) : Prop where
  running : s.ctx = .normal ∧ s.seqNormal = some f ∧ f.op = .init ∧ 2 ≤ f.k ∧ f.k ≤ 20
  masked : s.irqEn = false ∧ s.inited = false
  mark : s.lastMark = 0
  tick : 3 ≤ f.k → s.tickCount = 0
  targ : 4 ≤ f.k → s.target = 0
  cleared : 6 ≤ f.k → f.k ≤ 17 → s.inten = Flags.empty
  notPending : 8 ≤ f.k → f.k ≤ 18 → s.irqPend = false
  disabling : f.k = 9 ∨ f.k = 11 → s.syncOp = .none
  disablingWait : f.k = 10 → s.syncOp = .none ∨ s.syncOp = .writeCtrl resetCtrl
  resetWait : f.k = 12 → s.syncOp = .writeCtrl { resetCtrl with swrst := true } ∨
    (s.syncOp = .none ∧ s.FreshPeripheral ∧ s.ctrl = resetCtrl ∧ s.comp = 0)
  reset : f.k = 13 → s.syncOp = .none ∧ s.FreshPeripheral ∧ s.ctrl = resetCtrl ∧ s.comp = 0
  configureWait : f.k = 14 → s.FreshPeripheral ∧ s.comp = 0 ∧
    ((s.syncOp = .writeCtrl (initCtrl s.cfg.mode false) ∧ s.ctrl = resetCtrl) ∨
      (s.syncOp = .none ∧ s.ctrl = initCtrl s.cfg.mode false))
  configured : f.k = 15 → s.syncOp = .none ∧ s.FreshPeripheral ∧ s.comp = 0 ∧
    s.ctrl = initCtrl s.cfg.mode false
  compWait : f.k = 16 → s.FreshPeripheral ∧ s.ctrl = initCtrl s.cfg.mode false ∧
    ((s.syncOp = .writeComp (initComp s.cfg) ∧ s.cfg.mode = .periodic) ∨
      (s.syncOp = .none ∧ s.comp = initComp s.cfg))
  compSet : f.k = 17 ∨ f.k = 18 → s.syncOp = .none ∧ s.FreshPeripheral ∧ s.comp = initComp s.cfg ∧
    s.ctrl = initCtrl s.cfg.mode false
  sources : 18 ≤ f.k → s.inten = modeFlags s.cfg.mode
  enableWait : f.k = 19 → s.swrstLanded = true ∧ s.comp = initComp s.cfg ∧
    ((s.syncOp = .writeCtrl (initCtrl s.cfg.mode true) ∧ s.FreshPeripheral ∧
        s.ctrl = initCtrl s.cfg.mode false) ∨
      (s.syncOp = .none ∧ s.ctrl = initCtrl s.cfg.mode true))
  enabled : f.k = 20 → s.swrstLanded = true ∧ s.comp = initComp s.cfg ∧ s.syncOp = .none ∧
    s.ctrl = initCtrl s.cfg.mode true

/-- What 70 R233 and R234 say of the registers and variables, when INIT stands before its last step. -/
def State.InitEnds (s : State) : Prop :=
  (∃ f, s.seqNormal = some f ∧ f.op = .init ∧ f.k = 21) ∧ s.ctx = .normal ∧ s.irqEn = true ∧
    s.lastMark = 0 ∧ s.tickCount = 0 ∧ s.target = 0 ∧ s.comp = initComp s.cfg ∧
    s.ctrl = initCtrl s.cfg.mode true ∧ s.inten = modeFlags s.cfg.mode ∧ s.syncOp = .none

/-- How many of the turns are counter turns. -/
def counterTurns (ts : List Turn) : Nat :=
  ts.count .counter

/-! ### Infinite runs and weak fairness (70 R243) -/

/-- The turns of the machine's agents; the other two are the host's or a test program's own acts. -/
def ofAgent : Turn → Bool
  | .issue _ => false
  | .proc => true
  | .program _ => true
  | .counter => true
  | .sync => true
  | .enter => true
  | .hostReturn => false

/-- The answer is not the state `s`: a step that holds gives its state back (00 R10). -/
def moves (s : State) : Res → Bool
  | .next t => t != s
  | .fault _ => true
  | .refused _ => true

/-- The agent's step is enabled: the running context or the primitive has a step that does not hold
(00 R10), the counter is enabled (40 R101), the slot is occupied (40 R105), entry is enabled (60 R208). -/
def State.stepEnabled (s : State) : Turn → Bool
  | .issue _ => false
  | .proc => s.currentOp.isSome && moves { s with issuer := .sequencer } (proceed s)
  | .program n => (s.programOp n).isSome && moves { s with issuer := .program n } (programStep n s)
  | .counter => s.ctrl.enable
  | .sync => s.syncOp != .none
  | .enter => s.entryEnabled
  | .hostReturn => false

/-- `σ` is an infinite run in which the machine takes the turns `τ`, whatever its own schedule holds. -/
def RunAlong (τ : Nat → Turn) (σ : Nat → State) : Prop :=
  ∀ n, step { σ n with sched := τ n :: (σ n).sched } = .next (σ (n + 1))

/-- Weak fairness (70 R243): an agent's step that stays enabled from some moment on is taken. -/
def WeaklyFair (τ : Nat → Turn) (σ : Nat → State) : Prop :=
  ∀ t, ofAgent t = true → ∀ n, (∀ m, n ≤ m → (σ m).stepEnabled t = true) → ∃ m, n ≤ m ∧ τ m = t

/-- The operation whose step the turn `n` of the run performs, if it performs one. -/
def performedAt (τ : Nat → Turn) (σ : Nat → State) (n : Nat) : Option Instr :=
  State.performed { σ n with sched := τ n :: (σ n).sched }

/-- The turn `n` is a step of the counter agent (40 R101). -/
def counterStep (τ : Nat → Turn) (σ : Nat → State) (n : Nat) : Bool :=
  τ n == .counter && (σ n).ctrl.enable

/-- How many counter steps lie in the turns from `a` on and before `b`. -/
def counterSteps (τ : Nat → Turn) (σ : Nat → State) (a b : Nat) : Nat :=
  (List.range' a (b - a)).countP (counterStep τ σ)

/-! ### The named premises on runs (70 R239, R241, R242; log entry 25) -/

/-- The call in flight of a context, whichever context runs. -/
def State.callOf (s : State) : Context → Option Frame
  | .normal => s.seqNormal
  | .isr => s.seqCall

/-- The turn `n` is the processor's, on step `k` of the running context's call, whose frame is `f`; the slot is
empty, so that a step that waits for it does not hold. -/
def callStep (τ : Nat → Turn) (σ : Nat → State) (n : Nat) (f : Frame) (k : Nat) : Prop :=
  τ n = .proc ∧ (σ n).callFrame = some f ∧ f.k = k ∧ (σ n).syncOp = .none

/-- One SET_TIMEOUT.T takes the write path (41 R141): its step 3 is the turn `a`, its WR_COMP, step 6, is the
turn `b`, with the frame `f` there, and that write lands in the turn `e`. -/
structure WritePath (τ : Nat → Turn) (σ : Nat → State) (a b e : Nat) (f : Frame) : Prop where
  /-- It is a SET_TIMEOUT.T. -/
  op : ∃ ticks isIdle, f.op = .setTimeoutT ticks isIdle
  /-- The turn `a` performs a step 3 of that operation. -/
  read : ∃ g, g.op = f.op ∧ callStep τ σ a g 3
  /-- The turn `b` performs the step 6, in the same context. -/
  write : a < b ∧ (σ b).ctx = (σ a).ctx ∧ callStep τ σ b f 6
  /-- From `a` to `b` that context's call is past step 3 of it, so that both steps are of one call. -/
  same : ∀ m, a < m → m ≤ b → ∃ g, (σ m).callOf (σ a).ctx = some g ∧ g.op = f.op ∧ 4 ≤ g.k
  /-- The turn `e` is the first of the synchronisation unit after `b` (40 R105). -/
  lands : b < e ∧ τ e = .sync ∧ ∀ m, b < m → m < e → τ m ≠ .sync

/-- `LEAD_TIME_OK` (70 R239): for every SET_TIMEOUT.T of the run that takes the write path, with distance `r`,
fewer than `r` counter steps fall between its step 3 and the landing of its WR_COMP. -/
def LeadTimeOk (τ : Nat → Turn) (σ : Nat → State) : Prop :=
  ∀ a b e f, WritePath τ σ a b e f → counterSteps τ σ a e < f.r

/-- The turn `n` ends a period: a counter step whose match clears the counter (40 R103). -/
def periodEnd (τ : Nat → Turn) (σ : Nat → State) (n : Nat) : Bool :=
  counterStep τ σ n && (σ n).swrstLanded && (σ n).ctrl.matchclr && (σ n).count + 1 == (σ n).comp

/-- How many periods end in the turns before `n`. -/
def periodEnds (τ : Nat → Turn) (σ : Nat → State) (n : Nat) : Nat :=
  (List.range n).countP (periodEnd τ σ)

/-- The turn `n` is the processor's, on step `k` of the handler, whose frame is `f`. -/
def handlerStep (τ : Nat → Turn) (σ : Nat → State) (n : Nat) (f : Frame) (k : Nat) : Prop :=
  τ n = .proc ∧ (σ n).ctx = .isr ∧ (σ n).seqCall = none ∧ (σ n).seqAnn = none ∧
    (σ n).seqIsr = some f ∧ f.k = k

/-- `PERIODIC_LATENCY_OK` (70 R241, 42 R166): after each period end of the run the handler reads INTFLAG, at its
step 1 (43 R181), before the next period end. -/
def PeriodicLatencyOk (τ : Nat → Turn) (σ : Nat → State) : Prop :=
  ∀ a b, a < b → periodEnd τ σ a = true → periodEnd τ σ b = true →
    ∃ m f, a < m ∧ m < b ∧ handlerStep τ σ m f 1

/-- The turn `n` captures COUNT for the handler ISR.T, which awaits it at its step 4 (41 R145). -/
def handlerCapture (τ : Nat → Turn) (σ : Nat → State) (n : Nat) : Prop :=
  τ n = .sync ∧ (σ n).ctx = .isr ∧ (σ n).syncOp = .readCount ∧
    ∃ f, (σ n).seqIsr = some f ∧ f.op = .isrT ∧ f.k = 4

/-- The mark set in the turn `d` is COUNT as it was after the turn `a`. -/
inductive MarkedFrom (τ : Nat → Turn) (σ : Nat → State) : Nat → Nat → Prop where
  /-- A report: the handler captured COUNT in the turn `a` and moves the mark, step 7, in the turn `d`. -/
  | report (a d : Nat) (f : Frame) : a < d → handlerCapture τ σ a → handlerStep τ σ d f 7 →
      (∀ m, a < m → m ≤ d → ∃ g, (σ m).seqIsr = some g ∧ g.op = .isrT ∧ 4 ≤ g.k) → MarkedFrom τ σ a d
  /-- INIT: the software reset, landing in the turn `a`, leaves COUNT at the mark 0 (10 R48, 43 R186). -/
  | init (a : Nat) (c : Ctrl) : τ a = .sync → (σ a).syncOp = .writeCtrl c → c.swrst = true →
      (σ a).lastMark = 0 → MarkedFrom τ σ a a

/-- The premise of 70 R242: in the run fewer than 2^32 counter steps lie between the mark and each read of the
counter by the handler that measures from it. -/
def ReportIntervalOk (τ : Nat → Turn) (σ : Nat → State) : Prop :=
  ∀ a d b, MarkedFrom τ σ a d → d < b → handlerCapture τ σ b →
    (∀ m f, d < m → m < b → ¬ handlerStep τ σ m f 7) → counterSteps τ σ (a + 1) b < 2 ^ 32

end Sys2Proof.Machine
end

