-- ==== Sys2Proof/Certificates/Slice0/Obligations.lean ====
section
/-! DEFINITION. The statements about the tick timer block, drawn from the numbered rules of the spec. -/

open Sys2Proof Sys2Proof.Machine

/-! ### Encoding (30) -/

/-- Decoding the word of a well-formed operation gives the operation back: no bit of an encoding is dropped
(30 R81 to R92, R98). -/
def Obligations.DecodeAfterEncodeIsIdentity : Prop :=
  ∀ i : Instr, i.wf = true → decode (encode i) = .ok i

/-- A word that the decoder accepts is the encoding of the operation it reads, which is well formed: each
operation has one word (30 R81, R92, R98). -/
def Obligations.EncodeAfterDecodeIsIdentity : Prop :=
  ∀ (w : OpWord) (i : Instr), decode w = .ok i → encode i = w ∧ i.wf = true

/-- 30 R86. -/
def Obligations.ReservedBitsAreRefused : Prop :=
  ∀ w : OpWord, w.extractLsb' 11 21 ≠ 0 →
    decode w = .error .reservedBits ∧
    ∀ s : State, s.Running → ∃ t, step (s.issuing w) = .next t ∧ t.refused = true ∧
      t.log = s.log ++ [.refused .reservedBits]

/-- 30 R91: an operation code outside the table of R90. -/
def Obligations.UnassignedCodesAreRefused : Prop :=
  ∀ w : OpWord, w.extractLsb' 11 21 = 0 →
    (w.extractLsb' 0 8).toNat ∉
      [0x01, 0x02, 0x82, 0x03, 0x83, 0x04, 0x84, 0x05, 0x85, 0x06, 0x07, 0x40, 0x41, 0x42, 0x43, 0x44,
       0x45, 0x46, 0x47, 0x48, 0x49, 0x4A, 0x4B, 0x60, 0x61, 0x62, 0x63, 0x64, 0x65, 0x70, 0x71] →
    decode w = .error .unassigned ∧
    ∀ s : State, s.Running → ∃ t, step (s.issuing w) = .next t ∧ t.refused = true ∧
      t.log = s.log ++ [.refused .unassigned]

/-- 30 R92 and R98: for a word with an assigned code, exactly the listed field constraints decide between a
term and `invalid(FIELD)`. -/
def Obligations.FieldConstraintsDecideAcceptance : Prop :=
  ∀ (w : OpWord) (row : Row), w.extractLsb' 11 21 = 0 → lookup (w.extractLsb' 0 8) = some row →
    let opc := (w.extractLsb' 0 8).toNat
    let v := w.extractLsb' 9 2
    let imm : Word := w.extractLsb' 32 32
    let bad : Prop :=
      (w.getLsbD 8 = true ∧ opc ∉ [0x02, 0x82]) ∨ (v ≠ 0 ∧ opc ∉ [0x70, 0x71]) ∨ v = 3 ∨
      (imm ≠ 0 ∧ opc ∉ [0x02, 0x82, 0x06, 0x41, 0x46, 0x47, 0x48, 0x4A, 0x65, 0x71]) ∨
      (opc = 0x4A ∧ imm &&& (0xFFFFFF7C : Word) ≠ 0) ∨
      (opc ∈ [0x46, 0x47, 0x48] ∧ imm &&& (0xFFFFFF7E : Word) ≠ 0) ∨
      (opc = 0x65 ∧ 1 < imm.toNat)
    (bad → decode w = .error .field) ∧ (¬ bad → ∃ i, decode w = .ok i)

/-- The examples of 30 (after R97), one word and more for every family, read by the decoder. -/
def Obligations.KnownWordsDecode : Prop :=
  decode 0x0000000000000001 = .ok .init ∧
  decode 0x0000000500000002 = .ok (.setTimeoutT 5 false) ∧
  decode 0xFFFFFFFF00000002 = .ok (.setTimeoutT 0xFFFFFFFF false) ∧
  decode 0x0000000300000182 = .ok (.setTimeoutP 3 true) ∧
  decode 0x0000000000000003 = .ok .queryElapsedT ∧
  decode 0x0000003200000041 = .ok (.wrComp 50) ∧
  decode 0x0000008100000046 = .ok (.wrIntflag ⟨true, true⟩) ∧
  decode 0x000000820000004A = .ok (.wrCtrl ⟨false, true, .count32, true, 0⟩) ∧
  decode 0x0000000100000065 = .ok (.irqUnlock 1) ∧
  decode 0x0000000700000471 = .ok (.stVar .target 7) ∧
  decode 0x0000000000000270 = .ok (.ldVar .tickCount)

/-! ### The step -/

/-- A step whose turn issues a word that decodes to `i` is `exec i` as the host's call, followed by the
pending latch (60 R205); `withFetchWord` puts that turn next. That a turn issues the word and performs its
step 1 at once is the model's (log entries 4, 5 and 14). -/
def Obligations.StepRunsTheIssuedWord : Prop :=
  (∀ (s : State) (w : OpWord) (i : Instr) (ts : List Turn), s.Running → s.sched = .issue w :: ts →
    decode w = .ok i → step s = settle (exec i { s with sched := ts, issuer := .host })) ∧
  (∀ (s : State) (nbits w : Nat) (i : Instr), s.Running → decodeTableWord nbits w = some i →
    step (s.withFetchWord nbits w) = settle (exec i { s with issuer := .host }))

/-- 10 R22, 60 R209: a processor turn performs the next step of the operation that the context runs. In
interrupt context that is the callback's call, else the ANNOUNCE in progress, else the handler. The turn
is the model's (log entries 4, 17 and 24). In normal context a test program's turn performs the next step of its
`n`-th primitive in flight (log entry 9). -/
def Obligations.StepRunsTheRunningOperation : Prop :=
  (∀ (s : State) (f : Frame) (ts : List Turn), s.Running → s.sched = .proc :: ts →
    ((s.ctx = .normal ∧ s.seqNormal = some f) ∨
      (s.ctx = .isr ∧ s.seqCall = some f) ∨
      (s.ctx = .isr ∧ s.seqCall = none ∧ s.seqAnn = some f) ∨
      (s.ctx = .isr ∧ s.seqCall = none ∧ s.seqAnn = none ∧ s.seqIsr = some f)) →
    step s = settle (exec f.op { s with sched := ts, issuer := .sequencer })) ∧
  (∀ (s : State) (n : Nat) (f : Frame) (ts : List Turn), s.Running → s.sched = .program n :: ts →
    s.ctx = .normal → s.prims[n]? = some f →
    step s = settle (exec f.op { s with sched := ts, issuer := .program n }))

/-- 10 R46. -/
def Obligations.RefusedMachineHasNoStep : Prop :=
  (∀ cfg, (State.launch cfg).refused = false) ∧
  (∀ (reason : Reason) (s : State), (refuse reason s).refused = true) ∧
  (∀ s : State, s.refused = true → step s = .refused .halted)

/-- 00 R4 to R6, 60 R204, 70 R244: a configuration outside its bounds is refused before any turn is taken
(log entry 20). -/
def Obligations.InvalidConfigurationIsRefused : Prop :=
  ∀ s : State, s.refused = false →
    (s.cfg.cpt = 0 ∨ (s.cfg.mode = .periodic ∧ s.cfg.cpt < 2) ∨
      2 ^ 32 - 1 < s.cfg.maxTicks * s.cfg.cpt + 2 * (s.cfg.cpt - 1) ∨ s.cfg.leadThreshold = 0) →
    step s = .next { s with refused := true, log := s.log ++ [.refused .configInvalid] }

/-! ### Invariants and rules of the whole machine -/

/-- The machine's invariant is kept by every step, whoever moves. -/
def Obligations.StepKeepsTheInvariant : Prop :=
  ∀ s s' : State, s.Inv → step s = .next s' → s'.Inv

/-- 70 R231: what the spec gives the launch state, in every build (the values it leaves unspecified, log entry
2, are not stated); the invariant holds there, and so at `State.reset`, which is one of these states. -/
def Obligations.LaunchMeetsTheInvariant : Prop :=
  (∀ cfg : Config, (State.launch cfg).Inv ∧ (State.launch cfg).cfg = cfg ∧
    (State.launch cfg).syncbusy = false ∧ (State.launch cfg).syncOp = .none ∧
    (State.launch cfg).irqEn = false ∧ (State.launch cfg).irqLocked = false ∧
    (State.launch cfg).ctx = .normal ∧ (State.launch cfg).seqNormal = none ∧
    (State.launch cfg).seqIsr = none ∧ (State.launch cfg).prims = [] ∧ (State.launch cfg).inited = false ∧
    (State.launch cfg).refused = false ∧ (State.launch cfg).log = []) ∧
  (∃ cfg, State.reset = State.launch cfg) ∧ State.reset.Inv

/-- 60 R201, R212: from a state that meets the invariant no step faults, and a running machine has a step. -/
def Obligations.NoStepFaults : Prop :=
  ∀ s : State, s.Inv → (∀ r, step s ≠ .fault r) ∧ (s.refused = false → ∃ t, step s = .next t)

/-- 10 R34: SYNCBUSY = 1 exactly when SYNC_OP ≠ none, in every step; the slot at launch, after the software
reset, and after the synchronisation unit's step is empty. -/
def Obligations.SyncBusyMirrorsTheSlot : Prop :=
  (∀ s s' : State, (s.syncbusy = true ↔ s.syncOp ≠ .none) → step s = .next s' →
    (s'.syncbusy = true ↔ s'.syncOp ≠ .none)) ∧
  (∀ cfg, (State.launch cfg).syncOp = .none ∧ (State.launch cfg).syncbusy = false) ∧
  (∀ s, (softwareReset s).syncOp = .none ∧ (syncUnit s).syncOp = .none) ∧
  (∀ (s : State) (op : SyncOp), s.syncOp ≠ .none → postSync op s = none)

/-- 10 R40: nothing removes events from LOG. -/
def Obligations.LogOnlyGrows : Prop :=
  ∀ s s' : State, step s = .next s' → ∃ es, s'.log = s.log ++ es

/-- 00 R2, 43 R182: the parameters are fixed for a run; 10 R45, R46: INITED is never cleared; once the
software reset has landed it stays landed (70 R231). -/
def Obligations.ConfigurationIsFixed : Prop :=
  ∀ s s' : State, step s = .next s' →
    s'.cfg = s.cfg ∧ (s.inited = true → s'.inited = true) ∧
    (s.swrstLanded = true → s'.swrstLanded = true)

/-- 10 R39, 60 R209: while CTX = ISR the normal context's position and locals, and a test program's primitives
in flight, do not change, in any step, the returning one included. -/
def Obligations.NormalContextIsFrozenInTheHandler : Prop :=
  ∀ s s' : State, s.Inv → s.ctx = .isr → step s = .next s' →
    s'.seqNormal = s.seqNormal ∧ s'.prims = s.prims ∧ s'.dest = s.dest

/-- 60 R208, R213: ISR context is entered only by interrupt entry, and then with IRQ_PEND and IRQ_EN 1 and
IRQ_LOCKED 0; the entry clears IRQ_PEND and starts the build's handler. -/
def Obligations.HandlerIsEnteredOnlyByEntry : Prop :=
  ∀ s s' : State, s.ctx = .normal → step s = .next s' → s'.ctx = .isr →
    (nextTurn s).1 = .enter ∧ s.irqPend = true ∧ s.irqEn = true ∧ s.irqLocked = false ∧
    s'.irqPend = false ∧
    s'.seqIsr = some (Frame.start (match s.cfg.mode with | .tickless => .isrT | .periodic => .isrP))

/-- 10 R39, 43 R185, 60 R210, R211: ISR context is left only by a processor turn that performs IRET, as the
handler's last step; no other step leaves it, whatever is pending, and IRQ_LOCKED is unchanged. -/
def Obligations.HandlerIsLeftOnlyByIret : Prop :=
  ∀ s s' : State, s.Inv → s.ctx = .isr → step s = .next s' → s'.ctx = .normal →
    (nextTurn s).1 = .proc ∧ s.seqAnn = none ∧ s.seqCall = none ∧ s'.seqIsr = none ∧
    s'.irqLocked = s.irqLocked ∧
    ∃ f, s.seqIsr = some f ∧ f.k = (match s.cfg.mode with | .tickless => 9 | .periodic => 8)

/-- 10 R24, R32: COUNT is written only by the counter agent and by the landing of a software reset. -/
def Obligations.CountHasOnlyHardwareWriters : Prop :=
  ∀ s s' : State, step s = .next s' → s'.count ≠ s.count →
    (nextTurn s).1 = .counter ∨
    ((nextTurn s).1 = .sync ∧ ∃ c, s.syncOp = .writeCtrl c ∧ c.swrst = true)

/-- 10 R41 to R43, 40 R123: which operations write the software variables. -/
def Obligations.VariablesHaveNamedWriters : Prop :=
  ∀ s s' : State, step s = .next s' →
    (s'.lastMark ≠ s.lastMark →
      s.performed = some .init ∨ s.performed = some .isrT ∨ s.performed = some .isrP ∨
      ∃ v, s.performed = some (.stVar .lastMark v)) ∧
    (s'.tickCount ≠ s.tickCount →
      s.performed = some .init ∨ s.performed = some .isrP ∨
      ∃ v, s.performed = some (.stVar .tickCount v)) ∧
    (s'.target ≠ s.target →
      s.performed = some .init ∨ (∃ t b, s.performed = some (.setTimeoutP t b)) ∨
      ∃ v, s.performed = some (.stVar .target v))

/-- 10 R25 to R33, R37, R38, 20 R69: COMP and CTRL change only when the synchronisation unit lands a write;
INTEN, IRQ_EN, IRQ_LOCKED and INITED change only by the operations named here. -/
def Obligations.RegistersHaveNamedWriters : Prop :=
  ∀ s s' : State, step s = .next s' →
    (s'.comp ≠ s.comp → (nextTurn s).1 = .sync ∧ s.syncOp ≠ .none ∧ s.syncOp ≠ .readCount) ∧
    (s'.ctrl ≠ s.ctrl → (nextTurn s).1 = .sync ∧ ∃ c, s.syncOp = .writeCtrl c) ∧
    (s'.inten ≠ s.inten →
      (∃ f, s.performed = some (.wrIntenset f)) ∨ (∃ f, s.performed = some (.wrIntenclr f)) ∨
      s.performed = some .init ∨
      ((nextTurn s).1 = .sync ∧ ∃ c, s.syncOp = .writeCtrl c ∧ c.swrst = true)) ∧
    (s'.irqEn ≠ s.irqEn →
      s.performed = some .nvicEnable ∨ s.performed = some .nvicDisable ∨ s.performed = some .init) ∧
    (s'.irqLocked ≠ s.irqLocked →
      s.performed = some .irqLock ∨ (∃ k, s.performed = some (.irqUnlock k)) ∨
      ∃ t b, s.performed = some (.setTimeoutP t b)) ∧
    (s'.inited ≠ s.inited → s.performed = some .init)

/-- 60 R205: the pending latch, in every step and in IRET; in interrupt context it does nothing and only a
force-pending sets IRQ_PEND, step 4 of SET_TIMEOUT.T below the threshold or SET_TIMEOUT.P 0, each of which does
set it, in either context. -/
def Obligations.LevelLatchesThePendingBit : Prop :=
  (∀ s s' : State, s.Running → step s = .next s' → s'.ctx = .normal →
    (s'.intflag.cmp && s'.inten.cmp || s'.intflag.ovf && s'.inten.ovf) = true → s'.irqPend = true) ∧
  (∀ s : State, (returnFromInterrupt s).irqPend =
    (s.irqPend || (s.intflag.cmp && s.inten.cmp || s.intflag.ovf && s.inten.ovf))) ∧
  (∀ s : State, s.ctx = .isr → latch s = s) ∧
  (∀ s s' : State, s.ctx = .isr → step s = .next s' → s'.ctx = .isr →
    s.irqPend = false → s'.irqPend = true →
    (∃ t b f, s.performed = some (.setTimeoutT t b) ∧ s.callFrame = some f ∧ f.k = 4 ∧
      waitDistance s.cfg f.t f.c f.m < s.cfg.leadThreshold) ∨
    (∃ b, s.performed = some (.setTimeoutP 0 b))) ∧
  (∀ (s : State) (b : Bool), s.AcceptsCall .periodic → ∃ t, exec (.setTimeoutP 0 b) s = .next t ∧
    t.ctx = s.ctx ∧ t.irqPend = true) ∧
  (∀ (s : State) (ticks : Word) (b : Bool) (f : Frame), s.CallAt f 4 →
    waitDistance s.cfg f.t f.c f.m < s.cfg.leadThreshold →
    ∃ t, exec (.setTimeoutT ticks b) s = .next t ∧ t.ctx = s.ctx ∧ t.irqPend = true) ∧
  (∀ (s : State) (b : Bool), (latch { s with irqEn := b }).irqPend = (latch s).irqPend)

/-- 60 R206 to R208, R210: entry is enabled exactly when IRQ_PEND = 1, IRQ_EN = 1, IRQ_LOCKED = 0 and
CTX = NORMAL in a machine that is not refused; a turn given to it otherwise changes only the latch
(log entry 6). Under weak fairness (70 R243) an enabled entry is taken in the end, unless a step of the
software named here disables it first. -/
def Obligations.EntryHappensExactlyWhenEnabled : Prop :=
  (∀ (s : State) (ts : List Turn), s.Running → s.sched = .enter :: ts →
    (s.irqPend = true ∧ s.irqEn = true ∧ s.irqLocked = false ∧ s.ctx = .normal →
      step s = .next { s with
        sched := ts, irqPend := false, ctx := .isr,
        seqIsr := some (Frame.start (match s.cfg.mode with | .tickless => .isrT | .periodic => .isrP)) }) ∧
    (¬ (s.irqPend = true ∧ s.irqEn = true ∧ s.irqLocked = false ∧ s.ctx = .normal) →
      step s = .next (latch { s with sched := ts }))) ∧
  (∀ (τ : Nat → Turn) (σ : Nat → State) (n : Nat), RunAlong τ σ → WeaklyFair τ σ →
    (σ n).entryEnabled = true → ∃ m, n ≤ m ∧ (σ m).entryEnabled = true ∧
      let i := performedAt τ σ m
      (τ m = .enter ∧ (σ (m + 1)).ctx = .isr) ∨ i = some .nvicClrpend ∨ i = some .nvicDisable ∨
        i = some .irqLock ∨ (∃ key, i = some (.irqUnlock key)) ∨
        (∃ t b, i = some (.setTimeoutP t b)) ∨ i = some .init)

/-! ### The counter and the synchronisation unit (40) -/

/-- 40 R101 to R103: one counter turn, after the first software reset has landed; with ENABLE 0 the turn
changes only the latch (log entry 6). Under weak fairness (70 R243) a counter that stays enabled keeps
counting: after every moment there is another counter turn, with its effect. -/
def Obligations.CounterTurnCountsWhenEnabled : Prop :=
  (∀ (s : State) (ts : List Turn), s.Running → s.sched = .counter :: ts → s.swrstLanded = true →
    let n := s.count + 1
    (s.ctrl.enable = false → step s = .next (latch { s with sched := ts })) ∧
    (s.ctrl.enable = true → s.ctrl.matchclr = false →
      step s = .next (latch { s with
        sched := ts, count := n,
        intflag := ⟨s.intflag.cmp || n == s.comp, s.intflag.ovf || n == 0⟩ })) ∧
    (s.ctrl.enable = true → s.ctrl.matchclr = true → n = s.comp →
      step s = .next (latch { s with sched := ts, count := 0, intflag := ⟨true, true⟩ })) ∧
    (s.ctrl.enable = true → s.ctrl.matchclr = true → n ≠ s.comp →
      step s = .next (latch { s with
        sched := ts, count := n,
        intflag := ⟨s.intflag.cmp, s.intflag.ovf || n == 0⟩ }))) ∧
  (∀ (τ : Nat → Turn) (σ : Nat → State) (n : Nat), RunAlong τ σ → WeaklyFair τ σ →
    (∀ m, n ≤ m → (σ m).ctrl.enable = true) →
    ∀ k, n ≤ k → ∃ m, k ≤ m ∧ τ m = .counter ∧ σ (m + 1) = latch (counterAgent (σ m)))

/-- 40 R102, 70 R238: the free-running counter matches exactly when it arrives at COMP, which takes
`(COMP − COUNT) mod 2^32` steps, or 2^32 steps when COMP equals COUNT, whatever value COMP has. -/
def Obligations.FreeRunningCounterMatchesOnArrival : Prop :=
  ∀ (s : State) (j : Nat), s.Running → s.swrstLanded = true → s.ctrl.enable = true →
    s.ctrl.matchclr = false →
    let d := if s.comp = s.count then 2 ^ 32 else (s.comp - s.count).toNat
    j ≤ d → ∃ t, runTurns (List.replicate j .counter) s = .next t ∧
      t.count = s.count + BitVec.ofNat 32 j ∧ t.comp = s.comp ∧
      t.intflag.cmp = (s.intflag.cmp || decide (j = d))

/-- 40 R103, 10 R24: in the periodic configuration COUNT runs 0 to COMP − 1, and OVF is set at each return
to 0, so a period is COMP steps. -/
def Obligations.MatchClearCounterHasPeriodComp : Prop :=
  ∀ (s : State) (j : Nat), s.Running → s.swrstLanded = true → s.ctrl.enable = true →
    s.ctrl.matchclr = true → s.count.toNat < s.comp.toNat →
    ∃ t, runTurns (List.replicate j .counter) s = .next t ∧
      t.count.toNat = (s.count.toNat + j) % s.comp.toNat ∧ t.comp = s.comp ∧
      t.intflag.ovf = (s.intflag.ovf || decide (s.comp.toNat ≤ s.count.toNat + j)) ∧
      t.intflag.cmp = (s.intflag.cmp || decide (s.comp.toNat ≤ s.count.toNat + j))

/-- 70 R239: under LEAD_TIME_OK the comparator that step 6 of SET_TIMEOUT.T wrote fires at `c +32 r`: `j`
counter steps, fewer than `r`, before the landing, and then `r − j` more. Over a run that keeps the premise, a
write path whose capture `c` is COUNT at its step 3 (log entry 25) has its comparator in force and matched at
the `r`-th counter step from that step 3, while the counter runs free and no other WR_COMP lands. -/
def Obligations.ComparatorFiresUnderLeadTime : Prop :=
  (∀ (s : State) (c : Word) (r j : Nat) (after : List Turn), s.Running → s.swrstLanded = true →
    s.ctrl.enable = true → s.ctrl.matchclr = false → r < 2 ^ 32 →
    counterTurns (List.replicate j .counter ++ [.sync]) < r → s.count = c →
    s.syncOp = .writeComp (c + BitVec.ofNat 32 r) → after = List.replicate (r - j) .counter →
    ∃ t, runTurns (List.replicate j .counter ++ [.sync] ++ after) s = .next t ∧
      t.comp = c + BitVec.ofNat 32 r ∧ t.count = t.comp ∧ t.intflag.cmp = true ∧ t.syncOp = .none) ∧
  (∀ (τ : Nat → Turn) (σ : Nat → State) (a b e m : Nat) (f : Frame), RunAlong τ σ → LeadTimeOk τ σ →
    WritePath τ σ a b e f → (σ a).count = f.c →
    (∀ k, a ≤ k → k ≤ m →
      (σ k).swrstLanded = true ∧ (σ k).ctrl.enable = true ∧ (σ k).ctrl.matchclr = false) →
    (∀ k v, e < k → k ≤ m → τ k = .sync → (σ k).syncOp ≠ .writeComp v) →
    τ m = .counter → counterSteps τ σ a (m + 1) = f.r →
    e < m ∧ (σ (m + 1)).comp = f.c + BitVec.ofNat 32 f.r ∧ (σ (m + 1)).count = (σ (m + 1)).comp ∧
      (σ (m + 1)).intflag.cmp = true)

/-- 40 R105, R106, 10 R48: a turn of the synchronisation unit lands the slot's operation; with an
empty slot it changes only the latch (log entry 6). Under weak fairness (70 R243) every access lands: in the
end a turn of the unit lands the very operation that the slot holds. -/
def Obligations.SyncTurnLandsTheSlot : Prop :=
  (∀ (s : State) (ts : List Turn), s.Running → s.sched = .sync :: ts →
    (s.syncOp = .none → step s = .next (latch { s with sched := ts })) ∧
    (∀ v, s.syncOp = .writeComp v →
      step s = .next (latch { s with sched := ts, comp := v, syncOp := .none, syncbusy := false })) ∧
    (s.syncOp = .readCount →
      step s = .next (latch { s with
        sched := ts, countSnap := s.count, syncOp := .none, syncbusy := false })) ∧
    (∀ c, s.syncOp = .writeCtrl c → c.swrst = false →
      step s = .next (latch { s with sched := ts, ctrl := c, syncOp := .none, syncbusy := false })) ∧
    (∀ c, s.syncOp = .writeCtrl c → c.swrst = true →
      step s = .next (latch { s with
        sched := ts, count := 0, comp := 0,
        ctrl := ⟨false, false, .count32, false, 0⟩, inten := ⟨false, false⟩, intflag := ⟨false, false⟩,
        syncOp := .none, syncbusy := false, swrstLanded := true }))) ∧
  (∀ (τ : Nat → Turn) (σ : Nat → State) (n : Nat), RunAlong τ σ → WeaklyFair τ σ →
    (σ n).syncOp ≠ .none → ∃ m, n ≤ m ∧ τ m = .sync ∧ (σ m).syncOp = (σ n).syncOp ∧
      σ (m + 1) = latch (syncUnit (σ m)))

/-! ### The primitives (40) -/

/-- 40 R111, R113, R120, 20 R71: issued in normal context, whatever it runs, with the slot empty and no
earlier primitive waiting for it (log entry 9), a posted write occupies the slot and changes nothing else, and
WAIT_SYNC completes at once with no effect. -/
def Obligations.SynchronisedAccessesStartOnAnEmptySlot : Prop :=
  ∀ s : State, s.AcceptsPrimitive → s.SlotFree →
    exec .waitSync s = .next s ∧
    (∀ v, exec (.wrComp v) s = .next { s with syncOp := .writeComp v, syncbusy := true }) ∧
    (∀ c : Ctrl, c.mode = .count32 → c.prescaler = 0 →
      exec (.wrCtrl c) s = .next { s with syncOp := .writeCtrl c, syncbusy := true })

/-- 20 R70, 40 R110, R111, R113, R120: a synchronised access issued while the slot is occupied, or while an
earlier primitive waits for it, holds at its step 1; that step is repeated without effect until its turn
comes (log entries 6 and 9), and then performed. -/
def Obligations.SecondSynchronisedAccessHolds : Prop :=
  (∀ s : State, s.AcceptsPrimitive → ¬ s.SlotFree →
    let held (i : Instr) : State := { s with prims := s.prims ++ [Frame.start i] }
    (∀ v, exec (.wrComp v) s = .next (held (.wrComp v))) ∧
    (∀ c, c.modelled = true → exec (.wrCtrl c) s = .next (held (.wrCtrl c))) ∧
    exec .rdCount s = .next (held .rdCount) ∧ exec .waitSync s = .next (held .waitSync)) ∧
  (∀ (s : State) (n : Nat) (f : Frame), s.PrimitiveAt n f 1 → ¬ s.SlotFree →
    (∀ v, exec (.wrComp v) s = .next s) ∧ (∀ c, c.modelled = true → exec (.wrCtrl c) s = .next s) ∧
    exec .rdCount s = .next s ∧ exec .waitSync s = .next s) ∧
  (∀ (s : State) (n : Nat) (f : Frame), s.PrimitiveAt n f 1 → s.SlotFree →
    (∀ v, exec (.wrComp v) s =
      .next { s with syncOp := .writeComp v, syncbusy := true, prims := s.prims.eraseIdx n }) ∧
    (∀ c, c.modelled = true → exec (.wrCtrl c) s =
      .next { s with syncOp := .writeCtrl c, syncbusy := true, prims := s.prims.eraseIdx n }) ∧
    exec .waitSync s = .next { s with prims := s.prims.eraseIdx n })

/-- 40 R110: RD_COUNT step 1 issues the capture; step 2 holds until it has landed and returns COUNT_SNAP. -/
def Obligations.RdCountReturnsTheCapture : Prop :=
  (∀ s : State, s.AcceptsPrimitive → s.SlotFree →
    exec .rdCount s = .next { s with
      syncOp := .readCount, syncbusy := true,
      prims := s.prims ++ [{ Frame.start .rdCount with k := 2 }] }) ∧
  (∀ (s : State) (n : Nat) (f : Frame), s.PrimitiveAt n f 1 → s.SlotFree →
    exec .rdCount s = .next { s with
      syncOp := .readCount, syncbusy := true, prims := s.prims.set n { f with k := 2 } }) ∧
  (∀ (s : State) (n : Nat) (f : Frame), s.PrimitiveAt n f 2 →
    (s.syncOp ≠ .none → exec .rdCount s = .next s) ∧
    (s.syncOp = .none →
      exec .rdCount s = .next { s with dest := s.countSnap, prims := s.prims.eraseIdx n }))

/-- 40 R112, R114, R115, R119, R121, R122, 30 R87 to R89: the immediate reads return their register as a
word to `dest` and change nothing else, whatever the normal context runs and whatever is in flight: RD_SYNCBUSY
after step 1 of RD_COUNT returns 1. -/
def Obligations.ImmediateReadsReturnTheRegister : Prop :=
  (∀ s : State, s.AcceptsPrimitive →
    let flagWord (f : Flags) : Word := (if f.cmp then 0x01 else 0) + (if f.ovf then 0x80 else 0)
    exec .rdComp s = .next { s with dest := s.comp } ∧
    exec .rdSyncbusy s = .next { s with dest := if s.syncbusy then 1 else 0 } ∧
    exec .rdIntflag s = .next { s with dest := flagWord s.intflag } ∧
    exec .rdInten s = .next { s with dest := flagWord s.inten } ∧
    exec (.ldVar .lastMark) s = .next { s with dest := s.lastMark } ∧
    exec (.ldVar .tickCount) s = .next { s with dest := s.tickCount } ∧
    exec (.ldVar .target) s = .next { s with dest := s.target }) ∧
  (∀ s : State, s.AcceptsPrimitive → s.SlotFree → ∃ t u, exec .rdCount s = .next t ∧
    exec .rdSyncbusy t = .next u ∧ u.dest = 1 ∧ u.syncOp = .readCount ∧ u.prims = t.prims)

/-- 40 R121, 30 R87: RD_CTRL returns the landed CTRL, bit by bit, with SWRST read as 1 while a software reset
waits in the slot, and changes nothing else. -/
def Obligations.RdCtrlReturnsTheLandedControl : Prop :=
  ∀ s : State, s.AcceptsPrimitive → ∃ w : Word, exec .rdCtrl s = .next { s with dest := w } ∧
    (w.getLsbD 0 = true ↔ s.ctrl.swrst = true ∨ ∃ c, s.syncOp = .writeCtrl c ∧ c.swrst = true) ∧
    w.getLsbD 1 = s.ctrl.enable ∧
    w.extractLsb' 2 2 = (match s.ctrl.mode with
      | .count32 => 0#2 | .code01 => 1#2 | .code10 => 2#2 | .code11 => 3#2) ∧
    w.extractLsb' 4 3 = 0 ∧ w.getLsbD 7 = s.ctrl.matchclr ∧ w.extractLsb' 8 4 = s.ctrl.prescaler ∧
    w.extractLsb' 12 20 = 0

/-- 40 R116 to R118, 20 R67: the flag writes act at once on the bits given, and writing twice equals
writing once. -/
def Obligations.FlagWritesActOnTheGivenBits : Prop :=
  ∀ (s : State) (f : Flags), s.AcceptsPrimitive →
    (exec (.wrIntflag f) s =
      .next { s with intflag := ⟨s.intflag.cmp && !f.cmp, s.intflag.ovf && !f.ovf⟩ }) ∧
    (exec (.wrIntenset f) s = .next { s with inten := ⟨s.inten.cmp || f.cmp, s.inten.ovf || f.ovf⟩ }) ∧
    (exec (.wrIntenclr f) s =
      .next { s with inten := ⟨s.inten.cmp && !f.cmp, s.inten.ovf && !f.ovf⟩ }) ∧
    (∀ t, exec (.wrIntflag f) s = .next t → exec (.wrIntflag f) t = .next t) ∧
    (∀ t, exec (.wrIntenset f) s = .next t → exec (.wrIntenset f) t = .next t) ∧
    (∀ t, exec (.wrIntenclr f) s = .next t → exec (.wrIntenclr f) t = .next t)

/-- 40 R120, 30 R92: a WR_CTRL term with MODE other than COUNT32 or a nonzero PRESCALER is refused. -/
def Obligations.UnmodelledControlIsRefused : Prop :=
  ∀ (s : State) (c : Ctrl), s.AcceptsPrimitive → (c.mode ≠ .count32 ∨ c.prescaler ≠ 0) →
    exec (.wrCtrl c) s =
      .next { s with refused := true, log := s.log ++ [.refused .ctrlUnmodelled] }

/-- 40 R124 to R127: the interrupt-controller primitives, each with its one effect. -/
def Obligations.ControllerPrimitivesSetTheirBit : Prop :=
  ∀ s : State, s.AcceptsPrimitive →
    exec .nvicSetpend s = .next { s with irqPend := true } ∧
    exec .nvicClrpend s = .next { s with irqPend := false } ∧
    exec .nvicEnable s = .next { s with irqEn := true } ∧
    exec .nvicDisable s = .next { s with irqEn := false }

/-- 40 R128, R129: IRQ_LOCK returns the previous mask as the key and sets the mask; IRQ_UNLOCK restores the
key, so a lock and the unlock with its key leave the mask as it was, nested or not; a term with another
key is refused (log entry 21). -/
def Obligations.MaskIsSavedAndRestored : Prop :=
  ∀ s : State, s.AcceptsPrimitive →
    exec .irqLock s = .next { s with dest := if s.irqLocked then 1 else 0, irqLocked := true } ∧
    exec (.irqUnlock 0) s = .next { s with irqLocked := false } ∧
    exec (.irqUnlock 1) s = .next { s with irqLocked := true } ∧
    (∀ key : Word, 1 < key.toNat → exec (.irqUnlock key) s =
      .next { s with refused := true, log := s.log ++ [.refused .field] }) ∧
    (∃ t u, exec .irqLock s = .next t ∧ exec (.irqUnlock t.dest) t = .next u ∧
      u.irqLocked = s.irqLocked)

/-- 40 R123: ST_VAR writes the selected variable and nothing else. -/
def Obligations.StVarWritesTheVariable : Prop :=
  ∀ (s : State) (v : Word), s.AcceptsPrimitive →
    exec (.stVar .lastMark v) s = .next { s with lastMark := v } ∧
    exec (.stVar .tickCount v) s = .next { s with tickCount := v } ∧
    exec (.stVar .target v) s = .next { s with target := v }

/-! ### Refusals (30 R93, R94; 10 R45; 60 R204, R215) -/

/-- 30 R93: an operation of the other mode is refused; the kernel-facing ones with the reason WRONG_MODE,
which the model tries first (log entry 8). -/
def Obligations.OtherModeIsRefused : Prop :=
  ∀ (s : State) (t : Word) (b : Bool), s.issuer = .host →
    (s.cfg.mode = .tickless → ∀ i ∈ [.setTimeoutP t b, .queryElapsedP, .idleExitP],
      exec i s = .next { s with refused := true, log := s.log ++ [.refused .wrongMode] }) ∧
    (s.cfg.mode = .periodic → ∀ i ∈ [.setTimeoutT t b, .queryElapsedT, .idleExitT],
      exec i s = .next { s with refused := true, log := s.log ++ [.refused .wrongMode] }) ∧
    (∀ i ∈ [Instr.isrT, Instr.isrP], ∃ reason, exec i s = .next (refuse reason s))

/-- 30 R94: ISR, ANNOUNCE and IRET issued by the host, a kernel-facing call of the build's mode in
interrupt context outside an announce callback, and a primitive issued in interrupt context (log entry 9), are
refused WRONG_ISSUER; the order of the reasons is
the model's (log entry 8). -/
def Obligations.WrongIssuerIsRefused : Prop :=
  ∀ (s : State) (n t : Word) (b : Bool), s.issuer = .host →
    (∀ i ∈ [.isrT, .isrP, .announce n, .iret],
      exec i s = .next { s with refused := true, log := s.log ++ [.refused .wrongIssuer] }) ∧
    (s.ctx = .isr → ∀ i, roleOf i = .primitive →
      exec i s = .next { s with refused := true, log := s.log ++ [.refused .wrongIssuer] }) ∧
    (s.ctx = .isr → s.callbackOpen = false →
      (s.cfg.mode = .tickless → ∀ i ∈ [.setTimeoutT t b, .queryElapsedT, .idleExitT],
        exec i s = .next { s with refused := true, log := s.log ++ [.refused .wrongIssuer] }) ∧
      (s.cfg.mode = .periodic → ∀ i ∈ [.setTimeoutP t b, .queryElapsedP, .idleExitP],
        exec i s = .next { s with refused := true, log := s.log ++ [.refused .wrongIssuer] }))

/-- 10 R45: INITED is 0 at launch and INIT's last step sets it; a kernel-facing operation before that, or
INIT after it, is refused, with NOT_INITED in normal context and INIT_TWICE; the order of the
reasons is the model's (log entry 8). -/
def Obligations.InitComesFirstAndOnce : Prop :=
  (∀ cfg, (State.launch cfg).inited = false) ∧
  (∀ (s : State) (f : Frame), s.CallAt f 21 → ∃ t, exec .init s = .next t ∧ t.inited = true) ∧
  (∀ s : State, s.issuer = .host → s.inited = true →
    exec .init s = .next { s with refused := true, log := s.log ++ [.refused .initTwice] }) ∧
  (∀ (s : State) (t : Word) (b : Bool), s.issuer = .host → s.inited = false →
    (∀ i ∈ [.setTimeoutT t b, .setTimeoutP t b, .queryElapsedT, .queryElapsedP, .idleExitT, .idleExitP],
      ∃ reason, exec i s = .next (refuse reason s)) ∧
    (s.ctx = .normal →
      (s.cfg.mode = .tickless → ∀ i ∈ [.setTimeoutT t b, .queryElapsedT, .idleExitT],
        exec i s = .next { s with refused := true, log := s.log ++ [.refused .notInited] }) ∧
      (s.cfg.mode = .periodic → ∀ i ∈ [.setTimeoutP t b, .queryElapsedP, .idleExitP],
        exec i s = .next { s with refused := true, log := s.log ++ [.refused .notInited] })))

/-- 60 R215: a kernel-facing call in normal context while that context runs an operation is refused
CONCURRENT_CALL; the same call is admitted from an announce callback, whatever the normal context
runs. The order of the reasons is the model's (log entry 8). -/
def Obligations.ConcurrentCallIsRefused : Prop :=
  ∀ (s : State) (t : Word) (b : Bool), s.issuer = .host → s.inited = true →
    (s.ctx = .normal → s.seqNormal ≠ none →
      (s.cfg.mode = .tickless → ∀ i ∈ [.setTimeoutT t b, .queryElapsedT, .idleExitT],
        exec i s = .next { s with refused := true, log := s.log ++ [.refused .concurrentCall] }) ∧
      (s.cfg.mode = .periodic → ∀ i ∈ [.setTimeoutP t b, .queryElapsedP, .idleExitP],
        exec i s = .next { s with refused := true, log := s.log ++ [.refused .concurrentCall] })) ∧
    (s.ctx = .isr → s.callbackOpen = true → s.seqCall = none →
      (s.cfg.mode = .tickless → ∀ i ∈ [.setTimeoutT t b, .queryElapsedT, .idleExitT],
        ∃ u, exec i s = .next u ∧ u.refused = s.refused ∧ u.seqNormal = s.seqNormal) ∧
      (s.cfg.mode = .periodic → ∀ i ∈ [.setTimeoutP t b, .queryElapsedP, .idleExitP],
        ∃ u, exec i s = .next u ∧ u.refused = s.refused ∧ u.seqNormal = s.seqNormal))

/-! ### INIT, ANNOUNCE and IRET (43) -/

/-- 43 R186: INIT performs its 21 steps in the given order; the synchronised ones hold while the slot is
occupied. The status it returns is OK, whose word is 0; FAIL's is 1 (30 R89). -/
def Obligations.InitPerformsItsStepsInOrder : Prop :=
  (Result.ok.word = some 0 ∧ Result.fail.word = some 1) ∧
  (∀ s : State, s.Idle → s.inited = false →
    exec .init s = .next { s with lastMark := 0, seqNormal := some { Frame.start .init with k := 2 } }) ∧
  (∀ (s : State) (f : Frame), s.issuer = .sequencer → s.ctx = .normal → s.seqNormal = some f →
    let at_ (k : Nat) (t : State) : State := { t with seqNormal := some { f with k := k } }
    let post (k : Nat) (op : SyncOp) : Prop :=
      s.syncOp = .none → exec .init s = .next (at_ k { s with syncOp := op, syncbusy := true })
    let wait (k : Nat) : Prop := s.syncOp = .none → exec .init s = .next (at_ k s)
    let periodic : Bool := s.cfg.mode == .periodic
    (f.k = 1 → exec .init s = .next (at_ 2 { s with lastMark := 0 })) ∧
    (f.k = 2 → exec .init s = .next (at_ 3 { s with tickCount := 0 })) ∧
    (f.k = 3 → exec .init s = .next (at_ 4 { s with target := 0 })) ∧
    (f.k = 4 → exec .init s = .next (at_ 5 { s with irqEn := false })) ∧
    (f.k = 5 → exec .init s = .next (at_ 6 { s with inten := ⟨false, false⟩ })) ∧
    (f.k = 6 → exec .init s = .next (at_ 7 { s with intflag := ⟨false, false⟩ })) ∧
    (f.k = 7 → exec .init s = .next (at_ 8 { s with irqPend := false })) ∧
    (f.k = 8 → wait 9) ∧
    (f.k = 9 → post 10 (.writeCtrl ⟨false, false, .count32, false, 0⟩)) ∧
    (f.k = 10 → wait 11) ∧
    (f.k = 11 → post 12 (.writeCtrl ⟨true, false, .count32, false, 0⟩)) ∧
    (f.k = 12 → wait 13) ∧
    (f.k = 13 → post 14 (.writeCtrl ⟨false, false, .count32, periodic, 0⟩)) ∧
    (f.k = 14 → wait 15) ∧
    (f.k = 15 → s.cfg.mode = .periodic → post 16 (.writeComp (BitVec.ofNat 32 s.cfg.cpt))) ∧
    (f.k = 15 → s.cfg.mode = .tickless → exec .init s = .next (at_ 16 s)) ∧
    (f.k = 16 → wait 17) ∧
    (f.k = 17 → exec .init s =
      .next (at_ 18 { s with inten := ⟨s.inten.cmp || !periodic, s.inten.ovf || periodic⟩ })) ∧
    (f.k = 18 → post 19 (.writeCtrl ⟨false, true, .count32, periodic, 0⟩)) ∧
    (f.k = 19 → wait 20) ∧
    (f.k = 20 → exec .init s = .next (at_ 21 { s with irqEn := true })) ∧
    (f.k = 21 → exec .init s =
      .next { s with inited := true, seqNormal := none, log := s.log ++ [.returned .init .ok] }) ∧
    (f.k ∈ [8, 9, 10, 11, 12, 13, 14, 16, 18, 19] ∨ (f.k = 15 ∧ s.cfg.mode = .periodic) →
      s.syncOp ≠ .none → exec .init s = .next s))

/-- 43 R186, 70 R231: INIT, issued from any state of launch, whatever its unspecified values, enters the
phases of INIT. -/
def Obligations.InitEntersItsPhases : Prop :=
  ∀ s : State, s.Idle → s.inited = false → s.irqEn = false →
    ∃ t f, exec .init s = .next t ∧ t.InitPhase f ∧ f.k = 2

/-- 43 R186, 70 R231 to R234: under every interleaving, each step of the machine keeps the phases of INIT,
one step number at a time, or the machine is refused (a host call during INIT), or INIT is at its last step
and the registers and variables are as R233 and R234 say. By 70 R235 (d) no software but the core touches the
peripheral meanwhile: no step performs a test program's primitive. -/
def Obligations.InitProtocolHoldsUnderEveryInterleaving : Prop :=
  ∀ (s : State) (f : Frame) (s' : State), s.InitPhase f →
    (∀ i, s.performed = some i → roleOf i ≠ .primitive) → step s = .next s' →
    s'.refused = true ∨ (∃ f', s'.InitPhase f' ∧ (f'.k = f.k ∨ f'.k = f.k + 1)) ∨
    (f.k = 20 ∧ s'.InitEnds)

/-- 43 R183, R184: ANNOUNCE logs `announce(n)` and opens the callback; it then holds, with no effect, until
the host returns, which it can when no call is in flight there (log entry 17). -/
def Obligations.AnnounceLogsAndOpensTheCallback : Prop :=
  (∀ (s : State) (n : Word) (f : Frame), s.issuer = .sequencer → s.seqAnn = some f → f.k = 1 →
    exec (.announce n) s =
      .next { s with log := s.log ++ [.announce n], seqAnn := some { f with k := 2 } }) ∧
  (∀ (s : State) (n : Word) (f : Frame), s.issuer = .sequencer → s.seqAnn = some f → f.k = 2 →
    exec (.announce n) s = .next s) ∧
  (∀ (s : State) (f : Frame) (ts : List Turn), s.Running → s.sched = .hostReturn :: ts →
    s.seqAnn = some f → f.k = 2 →
    (s.seqCall = none → step s = .next (latch { s with sched := ts, seqAnn := none })) ∧
    (s.seqCall ≠ none → step s = .next (latch { s with sched := ts })))

/-- 43 R185, 60 R211: IRET returns to normal context and latches the level again. -/
def Obligations.IretReturnsToNormalContext : Prop :=
  ∀ s : State, s.issuer = .sequencer → s.ctx = .isr →
    exec .iret s = .next { s with
      ctx := .normal, seqIsr := none,
      irqPend := s.irqPend || (s.intflag.cmp && s.inten.cmp || s.intflag.ovf && s.inten.ovf) }

/-! ### The Tickless Timer Core (41) -/

/-- 41 R141: the six steps of SET_TIMEOUT.T, in normal context and in an announce callback. -/
def Obligations.SetTimeoutTPerformsItsSteps : Prop :=
  ∀ (ticks : Word) (isIdle : Bool) (s : State) (f : Frame),
    let i : Instr := .setTimeoutT ticks isIdle
    let p := (f.c - f.m).toNat % s.cfg.cpt
    let r := (f.t * s.cfg.cpt + p + s.cfg.cpt - 1) / s.cfg.cpt * s.cfg.cpt
    let ended (t : State) : State :=
      ({ t with log := t.log ++ [.returned .setTimeoutT .none] } : State).setCall none
    (s.AcceptsCall .tickless → exec i s = .next (s.setCall (some { Frame.start i with
      k := 2, m := s.lastMark,
      t := if ticks.toInt < 0 ∨ (s.cfg.maxTicks : Int) < ticks.toInt then s.cfg.maxTicks
           else ticks.toInt.toNat }))) ∧
    (s.CallAt f 2 → s.syncOp = .none → exec i s =
      .next (({ s with syncOp := .readCount, syncbusy := true } : State).setCall
        (some { f with k := 3 }))) ∧
    (s.CallAt f 3 → s.syncOp = .none → exec i s =
      .next (s.setCall (some { f with k := 4, c := s.countSnap }))) ∧
    (s.CallAt f 4 → r < s.cfg.leadThreshold → exec i s = .next (ended { s with irqPend := true })) ∧
    (s.CallAt f 4 → s.cfg.leadThreshold ≤ r → exec i s =
      .next (s.setCall (some { f with k := 5, r := r }))) ∧
    (s.CallAt f 5 → s.syncOp = .none → exec i s = .next (s.setCall (some { f with k := 6 }))) ∧
    (s.CallAt f 6 → s.syncOp = .none → exec i s =
      .next (ended { s with syncOp := .writeComp (f.c + BitVec.ofNat 32 f.r), syncbusy := true })) ∧
    (∀ k ∈ [2, 3, 5, 6], s.CallAt f k → s.syncOp ≠ .none → exec i s = .next s)

/-- 41 R141, 00 R5: for a valid configuration and a clamped wait, no intermediate value of step 4 reaches
2^32; the rounded distance is a multiple of CPT, at least `t` ticks, and exactly `t` or `t + 1` ticks as the
phase is zero or not; a zero wait on the mark's phase is always below the threshold. -/
def Obligations.WaitDistanceIsBoundedAndRounded : Prop :=
  ∀ (cfg : Config) (ticks c m : Word), cfg.valid = true →
    let t := clampTicks cfg ticks
    let p := (c - m).toNat % cfg.cpt
    let r := waitDistance cfg t c m
    t ≤ cfg.maxTicks ∧ t * cfg.cpt + p + cfg.cpt - 1 < 2 ^ 32 ∧ r < 2 ^ 32 ∧ r % cfg.cpt = 0 ∧
    t * cfg.cpt ≤ r ∧ r = (if p = 0 then t else t + 1) * cfg.cpt ∧
    (ticks = 0 → p = 0 → r < cfg.leadThreshold)

/-- 41 R142: the comparator written by step 6 lies `q·CPT + p + r` past the mark, on the mark's phase `p`,
and an interrupt taken with COUNT at the comparator announces `q + t` ticks, or `q + t + 1` when `p > 0`. -/
def Obligations.ComparatorLandsOnTheReadPhase : Prop :=
  ∀ (cfg : Config) (t : Nat) (c m : Word), cfg.valid = true →
    let q := (c - m).toNat / cfg.cpt
    let p := (c - m).toNat % cfg.cpt
    let r := waitDistance cfg t c m
    let comp := c + BitVec.ofNat 32 r
    (c - m).toNat + r < 2 ^ 32 →
    (comp - m).toNat = q * cfg.cpt + p + r ∧ (comp - m).toNat % cfg.cpt = p ∧
    (elapsedTicks cfg comp m).toNat = (if p = 0 then q + t else q + t + 1)

/-- 41 R141, whole: SET_TIMEOUT.T issued in idle normal context and run with no counter turn and no entry
ends with COMP at `c +32 r`, `c` being COUNT, or, below the threshold, with IRQ_PEND set and COMP as it was;
the mark, COUNT and the enables are untouched. -/
def Obligations.SetTimeoutTProgramsOrForces : Prop :=
  ∀ (s : State) (ticks : Word) (isIdle : Bool), s.Running → s.ctx = .normal → s.seqNormal = none →
    s.cfg.mode = .tickless → s.inited = true → s.syncOp = .none →
    let r := waitDistance s.cfg (clampTicks s.cfg ticks) s.count s.lastMark
    let start : List Turn := [.issue (encode (.setTimeoutT ticks isIdle)), .proc, .sync, .proc, .proc]
    (s.cfg.leadThreshold ≤ r → ∃ t, runTurns (start ++ [.proc, .proc, .sync]) s = .next t ∧
      t.comp = s.count + BitVec.ofNat 32 r ∧ t.seqNormal = none ∧ t.syncOp = .none ∧
      t.log = s.log ++ [.returned .setTimeoutT .none] ∧ t.lastMark = s.lastMark ∧ t.count = s.count ∧
      t.inten = s.inten ∧ t.ctx = .normal) ∧
    (r < s.cfg.leadThreshold → ∃ t, runTurns start s = .next t ∧
      t.irqPend = true ∧ t.comp = s.comp ∧ t.seqNormal = none ∧ t.syncOp = .none ∧
      t.log = s.log ++ [.returned .setTimeoutT .none] ∧ t.lastMark = s.lastMark ∧ t.count = s.count ∧
      t.inten = s.inten ∧ t.ctx = .normal)

/-- 41 R143, 42 R162: the four steps of QUERY_ELAPSED.T and the two of QUERY_ELAPSED.P. -/
def Obligations.QueryElapsedPerformsItsSteps : Prop :=
  ∀ (s : State) (f : Frame),
    let i : Instr := .queryElapsedT
    let n : Word := BitVec.ofNat 32 ((f.c - f.m).toNat / s.cfg.cpt)
    (s.AcceptsCall .tickless → exec i s =
      .next (s.setCall (some { Frame.start i with k := 2, m := s.lastMark }))) ∧
    (s.CallAt f 2 → s.syncOp = .none → exec i s =
      .next (({ s with syncOp := .readCount, syncbusy := true } : State).setCall
        (some { f with k := 3 }))) ∧
    (s.CallAt f 3 → s.syncOp = .none → exec i s =
      .next (s.setCall (some { f with k := 4, c := s.countSnap }))) ∧
    (s.CallAt f 4 → exec i s =
      .next (({ s with log := s.log ++ [.returned .queryElapsedT (.ticks n)] } : State).setCall none)) ∧
    (∀ k ∈ [2, 3], s.CallAt f k → s.syncOp ≠ .none → exec i s = .next s) ∧
    (s.AcceptsCall .periodic → exec .queryElapsedP s =
      .next (s.setCall (some { Frame.start .queryElapsedP with k := 2, m := s.lastMark }))) ∧
    (s.CallAt f 2 → exec .queryElapsedP s =
      .next (({ s with log := s.log ++ [.returned .queryElapsedP (.ticks (s.tickCount - f.m))] } :
        State).setCall none))

/-- 41 R144, 42 R163: IDLE_EXIT changes nothing but the log's `returned` event. -/
def Obligations.IdleExitOnlyLogs : Prop :=
  ∀ s : State,
    (s.AcceptsCall .tickless → exec .idleExitT s =
      .next { s with log := s.log ++ [.returned .idleExitT .none] }) ∧
    (s.AcceptsCall .periodic → exec .idleExitP s =
      .next { s with log := s.log ++ [.returned .idleExitP .none] })

/-- 41 R145, R147, 43 R181: the nine steps of ISR.T. -/
def Obligations.IsrTPerformsItsSteps : Prop :=
  ∀ (s : State) (f : Frame),
    let n : Word := BitVec.ofNat 32 ((f.c - f.m).toNat / s.cfg.cpt)
    let announced (v : Word) (k : Nat) : State :=
      { s with log := s.log ++ [.announce v], seqIsr := some { f with k := k },
               seqAnn := some { Frame.start (.announce v) with k := 2 } }
    (s.HandlerAt f 1 → exec .isrT s =
      .next { s with seqIsr := some { f with k := 2, s := s.intflag } }) ∧
    (s.HandlerAt f 2 → exec .isrT s = .next { s with
      intflag := ⟨s.intflag.cmp && !f.s.cmp, s.intflag.ovf && !f.s.ovf⟩,
      seqIsr := some { f with k := 3 } }) ∧
    (s.HandlerAt f 3 → s.syncOp = .none → exec .isrT s = .next { s with
      syncOp := .readCount, syncbusy := true, seqIsr := some { f with k := 4 } }) ∧
    (s.HandlerAt f 4 → s.syncOp = .none → exec .isrT s =
      .next { s with seqIsr := some { f with k := 5, c := s.countSnap } }) ∧
    (∀ k ∈ [3, 4], s.HandlerAt f k → s.syncOp ≠ .none → exec .isrT s = .next s) ∧
    (s.HandlerAt f 5 → f.c = s.lastMark → exec .isrT s =
      .next { s with seqIsr := some { f with k := 8, m := s.lastMark } }) ∧
    (s.HandlerAt f 5 → f.c ≠ s.lastMark → exec .isrT s =
      .next { s with seqIsr := some { f with k := 6, m := s.lastMark } }) ∧
    (s.HandlerAt f 6 → exec .isrT s = .next (announced n 7)) ∧
    (s.HandlerAt f 7 → exec .isrT s =
      .next { s with lastMark := f.c, seqIsr := some { f with k := 9 } }) ∧
    (s.HandlerAt f 8 → s.cfg.announceZeroOnEqual = true → exec .isrT s = .next (announced 0 9)) ∧
    (s.HandlerAt f 8 → s.cfg.announceZeroOnEqual = false → exec .isrT s =
      .next { s with seqIsr := some { f with k := 9 } }) ∧
    (s.HandlerAt f 9 → exec .isrT s = .next { s with
      ctx := .normal, seqIsr := none,
      irqPend := s.irqPend || (s.intflag.cmp && s.inten.cmp || s.intflag.ovf && s.inten.ovf) })

/-- 41 R145, whole: from interrupt entry to IRET, with no counter turn and a host that returns at once, the
tickless handler announces the whole ticks since the mark and moves the mark to COUNT, clears the flags, and
leaves the normal context as it was; with COUNT at the mark and ANNOUNCE_ZERO_ON_EQUAL false it announces
nothing. Over a run that keeps the premise of 70 R242, the difference between COUNT as the handler captures it and
the count that the mark stands for is the true number of counter steps since. -/
def Obligations.IsrTReportsAndMovesTheMark : Prop :=
  (∀ s : State, s.Running → s.cfg.mode = .tickless → s.ctx = .normal → s.irqPend = true →
    s.irqEn = true → s.irqLocked = false → s.syncOp = .none → s.seqAnn = none → s.seqCall = none →
    let reading : List Turn := [.enter, .proc, .proc, .proc, .sync, .proc, .proc]
    (s.count ≠ s.lastMark → ∃ t, runTurns (reading ++ [.proc, .hostReturn, .proc, .proc]) s = .next t ∧
      t.log = s.log ++ [.announce (BitVec.ofNat 32 ((s.count - s.lastMark).toNat / s.cfg.cpt))] ∧
      t.lastMark = s.count ∧ t.count = s.count ∧ t.ctx = .normal ∧ t.seqIsr = none ∧ t.irqPend = false ∧
      t.intflag = ⟨false, false⟩ ∧ t.seqNormal = s.seqNormal ∧ t.comp = s.comp) ∧
    (s.count = s.lastMark → s.cfg.announceZeroOnEqual = false →
      ∃ t, runTurns (reading ++ [.proc, .proc]) s = .next t ∧ t.log = s.log ∧
      t.lastMark = s.lastMark ∧ t.count = s.count ∧ t.ctx = .normal ∧ t.seqIsr = none ∧
      t.irqPend = false ∧ t.intflag = ⟨false, false⟩ ∧ t.seqNormal = s.seqNormal ∧ t.comp = s.comp)) ∧
  (∀ (τ : Nat → Turn) (σ : Nat → State) (a d b : Nat), RunAlong τ σ → ReportIntervalOk τ σ →
    MarkedFrom τ σ a d → d < b → handlerCapture τ σ b →
    (∀ m f, d < m → m < b → ¬ handlerStep τ σ m f 7) →
    (∀ k, a < k → k ≤ b →
      (σ k).swrstLanded = true ∧ (σ k).ctrl.enable = true ∧ (σ k).ctrl.matchclr = false) →
    ((σ b).count - (σ (a + 1)).count).toNat = counterSteps τ σ (a + 1) b)

/-! ### The Periodic Timer Core (42) -/

/-- 42 R161: the four steps of SET_TIMEOUT.P, in normal context and in an announce callback. -/
def Obligations.SetTimeoutPPerformsItsSteps : Prop :=
  ∀ (ticks : Word) (isIdle : Bool) (s : State) (f : Frame),
    let i : Instr := .setTimeoutP ticks isIdle
    let ended (t : State) : State :=
      ({ t with log := t.log ++ [.returned .setTimeoutP .none] } : State).setCall none
    (s.AcceptsCall .periodic → ticks = 0 → exec i s = .next (ended { s with irqPend := true })) ∧
    (s.AcceptsCall .periodic → ticks ≠ 0 → exec i s =
      .next (({ s with irqLocked := true } : State).setCall
        (some { Frame.start i with k := 2, key := if s.irqLocked then 1 else 0 }))) ∧
    (s.CallAt f 2 → exec i s = .next (s.setCall (some { f with k := 3, tick := s.tickCount }))) ∧
    (s.CallAt f 3 → ticks.toInt < 0 → exec i s =
      .next (({ s with target := f.tick } : State).setCall (some { f with k := 4 }))) ∧
    (s.CallAt f 3 → 0 < ticks.toInt → exec i s =
      .next (({ s with target := f.tick + ticks } : State).setCall (some { f with k := 4 }))) ∧
    (s.CallAt f 4 → exec i s = .next (ended { s with irqLocked := f.key.getLsbD 0 }))

/-- 42 R161, 70 R240, whole: under any turns of the counter, the synchronisation unit and interrupt entry
between its steps, SET_TIMEOUT.P with ticks other than 0 runs to its end without the handler entering, and
leaves TARGET at TICK_COUNT plus the ticks, or at TICK_COUNT for a negative wait, and the mask as it was. -/
def Obligations.SetTimeoutPIsACriticalSection : Prop :=
  ∀ (s : State) (ticks : Word) (isIdle : Bool) (a b c : List Turn), s.Running → s.ctx = .normal →
    s.seqNormal = none → s.cfg.mode = .periodic → s.inited = true → ticks ≠ 0 →
    (∀ t ∈ a ++ b ++ c, t = .counter ∨ t = .sync ∨ t = .enter) →
    ∃ t, runTurns ([.issue (encode (.setTimeoutP ticks isIdle))] ++ a ++ [.proc] ++ b ++ [.proc] ++ c ++
        [.proc]) s = .next t ∧
      t.target = (if ticks.toInt < 0 then s.tickCount else s.tickCount + ticks) ∧
      t.tickCount = s.tickCount ∧ t.lastMark = s.lastMark ∧ t.irqLocked = s.irqLocked ∧
      t.ctx = .normal ∧ t.seqNormal = none ∧ t.log = s.log ++ [.returned .setTimeoutP .none]

/-- 42 R164, 43 R181: the eight steps of ISR.P. -/
def Obligations.IsrPPerformsItsSteps : Prop :=
  ∀ (s : State) (f : Frame),
    let announced (v : Word) (g : Frame) : State :=
      { s with log := s.log ++ [.announce v], seqIsr := some g,
               seqAnn := some { Frame.start (.announce v) with k := 2 } }
    (s.HandlerAt f 1 → exec .isrP s =
      .next { s with seqIsr := some { f with k := 2, s := s.intflag } }) ∧
    (s.HandlerAt f 2 → exec .isrP s = .next { s with
      intflag := ⟨s.intflag.cmp && !f.s.cmp, s.intflag.ovf && !f.s.ovf⟩,
      seqIsr := some { f with k := if f.s = ⟨false, false⟩ then 7 else 3 } }) ∧
    (s.HandlerAt f 3 → exec .isrP s = .next { s with
      tickCount := s.tickCount + 1,
      seqIsr := some { f with k := 4, tick := s.tickCount + 1 } }) ∧
    (s.HandlerAt f 4 → f.tick = s.target → exec .isrP s =
      .next { s with seqIsr := some { f with k := 5 } }) ∧
    (s.HandlerAt f 4 → f.tick ≠ s.target → exec .isrP s =
      .next { s with seqIsr := some { f with k := 8 } }) ∧
    (s.HandlerAt f 5 → exec .isrP s =
      .next (announced (f.tick - s.lastMark) { f with k := 6, m := s.lastMark })) ∧
    (s.HandlerAt f 6 → exec .isrP s =
      .next { s with lastMark := f.tick, seqIsr := some { f with k := 8 } }) ∧
    (s.HandlerAt f 7 → exec .isrP s = .next (announced 0 { f with k := 8 })) ∧
    (s.HandlerAt f 8 → exec .isrP s = .next { s with
      ctx := .normal, seqIsr := none,
      irqPend := s.irqPend || (s.intflag.cmp && s.inten.cmp || s.intflag.ovf && s.inten.ovf) })

/-- 42 R164, R166, 70 R241: however many counter steps `j` pass, one period end or more, before the handler
runs, one handler run counts exactly one tick; it announces the ticks since the mark when the target is met,
and nothing otherwise. Over a run under PERIODIC_LATENCY_OK TICK_COUNT counts every period: from an idle
initialised machine with no flag set, in normal context it is behind the period ends by the one that OVF still
shows. That no period ends between the handler's read and its write-back (42 R166), and that no test program's
primitive is performed (70 R235 (d)), are premises too (log entry 25). -/
def Obligations.OneHandlerRunCountsOneTick : Prop :=
  (∀ (s : State) (j : Nat), s.Running → s.cfg.mode = .periodic → s.swrstLanded = true →
    s.ctrl.enable = true → s.ctrl.matchclr = true → s.inten = ⟨false, true⟩ → s.ctx = .normal →
    s.irqEn = true → s.irqLocked = false → s.seqAnn = none → s.seqCall = none →
    s.count.toNat < s.comp.toNat → s.comp.toNat ≤ s.count.toNat + j →
    let waiting : List Turn := List.replicate j .counter ++ [.enter, .proc, .proc, .proc, .proc]
    (s.tickCount + 1 = s.target →
      ∃ t, runTurns (waiting ++ [.proc, .hostReturn, .proc, .proc]) s = .next t ∧
      t.tickCount = s.tickCount + 1 ∧ t.lastMark = s.tickCount + 1 ∧ t.ctx = .normal ∧
      t.log = s.log ++ [.announce (s.tickCount + 1 - s.lastMark)] ∧ t.intflag = ⟨false, false⟩) ∧
    (s.tickCount + 1 ≠ s.target → ∃ t, runTurns (waiting ++ [.proc]) s = .next t ∧
      t.tickCount = s.tickCount + 1 ∧ t.lastMark = s.lastMark ∧ t.ctx = .normal ∧ t.log = s.log ∧
      t.intflag = ⟨false, false⟩)) ∧
  (∀ (τ : Nat → Turn) (σ : Nat → State) (n : Nat), RunAlong τ σ → PeriodicLatencyOk τ σ →
    (∀ m f, periodEnd τ σ m = true → (σ m).seqIsr = some f → f.k ≠ 2) →
    (∀ m i, performedAt τ σ m = some i → roleOf i ≠ .primitive) →
    (σ 0).Inv → (σ 0).cfg.mode = .periodic → (σ 0).inited = true → (σ 0).ctx = .normal →
    (σ 0).seqNormal = none → (σ 0).syncOp = .none → (σ 0).swrstLanded = true →
    (σ 0).ctrl = initCtrl .periodic true → (σ 0).count.toNat < (σ 0).comp.toNat →
    (σ 0).intflag = ⟨false, false⟩ → (σ n).ctx = .normal →
    (σ n).tickCount + (if (σ n).intflag.ovf then 1 else 0) =
      (σ 0).tickCount + BitVec.ofNat 32 (periodEnds τ σ n))
end

