-- ==== Sys2Proof/Laws/Decode.lean ====
section
/-! SUPPORT. The fields of an assembled word, and the two ways between operand records and their words. -/

namespace Sys2Proof

/-- The bits of an assembled word. -/
theorem assemble_getLsbD (opc : BitVec 8) (b : Bool) (v : BitVec 2) (imm : Word) (i : Nat) :
    (assemble opc b v imm).getLsbD i =
      if i < 8 then opc.getLsbD i
      else if i < 9 then b
      else if i < 11 then v.getLsbD (i - 9)
      else if i < 32 then false
      else imm.getLsbD (i - 32) := by
  unfold assemble
  change BitVec.getLsbD (w := 32 + 21 + 2 + 1 + 8) _ i = _
  simp only [BitVec.getLsbD_append]
  have e1 : i - 8 - 1 = i - 9 := by omega
  have e2 : i - 9 - 2 = i - 11 := by omega
  have e3 : i - 11 - 21 = i - 32 := by omega
  simp only [e1, e2, e3, show (i - 8 < 1) ↔ i < 9 by omega, show (i - 9 < 2) ↔ i < 11 by omega,
    show (i - 11 < 21) ↔ i < 32 by omega]
  by_cases h8 : i < 8 <;> by_cases h9 : i < 9 <;> simp [h8, h9]
  rw [show i - 8 = 0 by omega]
  simp

@[simp] theorem assemble_opc (opc : BitVec 8) (b : Bool) (v : BitVec 2) (imm : Word) :
    OpWord.opc (assemble opc b v imm) = opc := by
  ext i hi
  simp [OpWord.opc, assemble_getLsbD, hi]

@[simp] theorem assemble_b (opc : BitVec 8) (b : Bool) (v : BitVec 2) (imm : Word) :
    OpWord.b (assemble opc b v imm) = b := by
  rw [OpWord.b, assemble_getLsbD]
  rfl

@[simp] theorem assemble_v (opc : BitVec 8) (b : Bool) (v : BitVec 2) (imm : Word) :
    OpWord.v (assemble opc b v imm) = v := by
  ext i hi
  simp [OpWord.v, assemble_getLsbD, hi, show 9 + i < 11 by omega, show ¬ 9 + i < 8 by omega]

@[simp] theorem assemble_rsv (opc : BitVec 8) (b : Bool) (v : BitVec 2) (imm : Word) :
    OpWord.rsv (assemble opc b v imm) = 0 := by
  ext i hi
  simp [OpWord.rsv, assemble_getLsbD, show 11 + i < 32 by omega, show ¬ 11 + i < 8 by omega,
    show ¬ 11 + i < 9 by omega]

@[simp] theorem assemble_imm (opc : BitVec 8) (b : Bool) (v : BitVec 2) (imm : Word) :
    OpWord.imm (assemble opc b v imm) = imm := by
  ext i hi
  simp [OpWord.imm, assemble_getLsbD, hi, show ¬ 32 + i < 11 by omega, show ¬ 32 + i < 8 by omega,
    show ¬ 32 + i < 9 by omega]

/-- A word with `RSV` 0 is assembled from its fields. -/
theorem assemble_fields {w : OpWord} (h : w.rsv = 0) : assemble w.opc w.b w.v w.imm = w := by
  apply BitVec.eq_of_getLsbD_eq
  intro i hi
  rw [assemble_getLsbD]
  split_ifs with h8 h9 h11 h32
  · simp [OpWord.opc, h8]
  · rw [show i = 8 by omega]; rfl
  · simp [OpWord.v, show i - 9 < 2 by omega, show 9 + (i - 9) = i by omega]
  · have := congrArg (fun x : BitVec 21 => x.getLsbD (i - 11)) h
    simpa [OpWord.rsv, show i - 11 < 21 by omega, show 11 + (i - 11) = i by omega] using this.symm
  · simp [OpWord.imm, show i - 32 < 32 by omega, show 32 + (i - 32) = i by omega]

@[simp] theorem Flags.ofWord_toWord (f : Flags) : Flags.ofWord f.toWord = f := by
  rcases f with ⟨c, o⟩; cases c <;> cases o <;> rfl

@[simp] theorem flagsOk_toWord (f : Flags) : flagsOk f.toWord = true := by
  rcases f with ⟨c, o⟩; cases c <;> cases o <;> rfl

@[simp] theorem Var.ofBits_toBits (v : Var) : Var.ofBits v.toBits = some v := by
  cases v <;> rfl

/-- A modelled control value is read back from its word. -/
theorem Ctrl.ofWord_toWord {c : Ctrl} (h : c.modelled = true) :
    Ctrl.ofWord c.toWord = c ∧ ctrlOk c.toWord = true := by
  rcases c with ⟨s, e, m, mc, p⟩
  simp only [Ctrl.modelled, Bool.and_eq_true, beq_iff_eq] at h
  obtain ⟨rfl, rfl⟩ := h
  cases s <;> cases e <;> cases mc <;> decide

/-- A word that passes `ctrlOk` is the word of the control value read from it, which is modelled. -/
theorem Ctrl.toWord_ofWord {w : Word} (h : ctrlOk w = true) :
    (Ctrl.ofWord w).toWord = w ∧ (Ctrl.ofWord w).modelled = true := by
  simp only [ctrlOk, Bool.and_eq_true, beq_iff_eq] at h
  obtain ⟨⟨⟨hr, hz⟩, hm⟩, hp⟩ := h
  refine ⟨?_, by simp [Ctrl.modelled, Ctrl.ofWord, CtrlMode.ofBits, hm, hp]⟩
  have hw : Ctrl.ofWord w = ⟨w.getLsbD 0, w.getLsbD 1, .count32, w.getLsbD 7, 0⟩ := by
    simp [Ctrl.ofWord, CtrlMode.ofBits, hm, hp]
  have bit (k n i : Nat) (hz : w.extractLsb' k n = 0) (hi : k ≤ i ∧ i < k + n) : w.getLsbD i = false := by
    have := congrArg (fun x : BitVec n => x.getLsbD (i - k)) hz
    simpa [show i - k < n by omega, show k + (i - k) = i by omega] using this
  rw [hw]
  apply BitVec.eq_of_getLsbD_eq
  intro i hi
  have hb : ∀ a b c : Bool, (Ctrl.toWord ⟨a, b, .count32, c, 0⟩).getLsbD i =
      if i = 0 then a else if i = 1 then b else if i = 7 then c else false := by
    have : ∀ i < 32, ∀ a b c : Bool, (Ctrl.toWord ⟨a, b, .count32, c, 0⟩).getLsbD i =
      if i = 0 then a else if i = 1 then b else if i = 7 then c else false := by decide
    exact this i hi
  rw [hb]
  split_ifs with h0 h1 h7
  · rw [h0]
  · rw [h1]
  · rw [h7]
  · by_cases h2 : i < 4
    · exact (bit 2 2 i hm (by omega)).symm
    by_cases h3 : i < 7
    · exact (bit 4 3 i hz (by omega)).symm
    by_cases h4 : i < 12
    · exact (bit 8 4 i hp (by omega)).symm
    · exact (bit 12 20 i hr (by omega)).symm

/-- A word that passes `flagsOk` is the word of the flag set read from it. -/
theorem Flags.toWord_ofWord {w : Word} (h : flagsOk w = true) : (Flags.ofWord w).toWord = w := by
  simp only [flagsOk, beq_iff_eq] at h
  apply BitVec.eq_of_getLsbD_eq
  intro i hi
  have hb : ∀ i < 32, ∀ a b : Bool, (Flags.toWord ⟨a, b⟩).getLsbD i =
      if i = 0 then a else if i = 7 then b else false := by decide
  have hm : ∀ i < 32, (~~~(0x81 : Word)).getLsbD i = (i != 0 && i != 7) := by decide
  have := congrArg (fun x : Word => x.getLsbD i) h
  simp only [BitVec.getLsbD_and, hm i hi] at this
  rw [Flags.ofWord, hb i hi]
  split_ifs with h0 h7
  · rw [h0]
  · rw [h7]
  · simpa [h0, h7] using this.symm

end Sys2Proof
end

