-- ==== Sys2Proof/Laws/State.lean ====
section
/-! SUPPORT. One lemma per field per named update of the state, so that no later proof unfolds an update. -/

namespace Sys2Proof.Machine

/-! ### `logged` -/

@[simp] theorem logged_cfg (e : Event) (s : State) : (s.logged e).cfg = s.cfg := rfl
@[simp] theorem logged_count (e : Event) (s : State) : (s.logged e).count = s.count := rfl
@[simp] theorem logged_comp (e : Event) (s : State) : (s.logged e).comp = s.comp := rfl
@[simp] theorem logged_ctrl (e : Event) (s : State) : (s.logged e).ctrl = s.ctrl := rfl
@[simp] theorem logged_inten (e : Event) (s : State) : (s.logged e).inten = s.inten := rfl
@[simp] theorem logged_intflag (e : Event) (s : State) : (s.logged e).intflag = s.intflag := rfl
@[simp] theorem logged_syncbusy (e : Event) (s : State) : (s.logged e).syncbusy = s.syncbusy := rfl
@[simp] theorem logged_syncOp (e : Event) (s : State) : (s.logged e).syncOp = s.syncOp := rfl
@[simp] theorem logged_countSnap (e : Event) (s : State) : (s.logged e).countSnap = s.countSnap := rfl
@[simp] theorem logged_swrstLanded (e : Event) (s : State) : (s.logged e).swrstLanded = s.swrstLanded := rfl
@[simp] theorem logged_irqPend (e : Event) (s : State) : (s.logged e).irqPend = s.irqPend := rfl
@[simp] theorem logged_irqEn (e : Event) (s : State) : (s.logged e).irqEn = s.irqEn := rfl
@[simp] theorem logged_irqLocked (e : Event) (s : State) : (s.logged e).irqLocked = s.irqLocked := rfl
@[simp] theorem logged_ctx (e : Event) (s : State) : (s.logged e).ctx = s.ctx := rfl
@[simp] theorem logged_lastMark (e : Event) (s : State) : (s.logged e).lastMark = s.lastMark := rfl
@[simp] theorem logged_tickCount (e : Event) (s : State) : (s.logged e).tickCount = s.tickCount := rfl
@[simp] theorem logged_target (e : Event) (s : State) : (s.logged e).target = s.target := rfl
@[simp] theorem logged_inited (e : Event) (s : State) : (s.logged e).inited = s.inited := rfl
@[simp] theorem logged_refused (e : Event) (s : State) : (s.logged e).refused = s.refused := rfl
@[simp] theorem logged_log (e : Event) (s : State) : (s.logged e).log = s.log ++ [e] := rfl
@[simp] theorem logged_seqNormal (e : Event) (s : State) : (s.logged e).seqNormal = s.seqNormal := rfl
@[simp] theorem logged_seqIsr (e : Event) (s : State) : (s.logged e).seqIsr = s.seqIsr := rfl
@[simp] theorem logged_seqAnn (e : Event) (s : State) : (s.logged e).seqAnn = s.seqAnn := rfl
@[simp] theorem logged_seqCall (e : Event) (s : State) : (s.logged e).seqCall = s.seqCall := rfl
@[simp] theorem logged_prims (e : Event) (s : State) : (s.logged e).prims = s.prims := rfl
@[simp] theorem logged_dest (e : Event) (s : State) : (s.logged e).dest = s.dest := rfl
@[simp] theorem logged_issuer (e : Event) (s : State) : (s.logged e).issuer = s.issuer := rfl
@[simp] theorem logged_sched (e : Event) (s : State) : (s.logged e).sched = s.sched := rfl
@[simp] theorem logged_fresh (e : Event) (s : State) : (s.logged e).fresh = s.fresh := rfl

/-! ### `refuse` -/

@[simp] theorem refuse_cfg (r : Reason) (s : State) : (refuse r s).cfg = s.cfg := rfl
@[simp] theorem refuse_count (r : Reason) (s : State) : (refuse r s).count = s.count := rfl
@[simp] theorem refuse_comp (r : Reason) (s : State) : (refuse r s).comp = s.comp := rfl
@[simp] theorem refuse_ctrl (r : Reason) (s : State) : (refuse r s).ctrl = s.ctrl := rfl
@[simp] theorem refuse_inten (r : Reason) (s : State) : (refuse r s).inten = s.inten := rfl
@[simp] theorem refuse_intflag (r : Reason) (s : State) : (refuse r s).intflag = s.intflag := rfl
@[simp] theorem refuse_syncbusy (r : Reason) (s : State) : (refuse r s).syncbusy = s.syncbusy := rfl
@[simp] theorem refuse_syncOp (r : Reason) (s : State) : (refuse r s).syncOp = s.syncOp := rfl
@[simp] theorem refuse_countSnap (r : Reason) (s : State) : (refuse r s).countSnap = s.countSnap := rfl
@[simp] theorem refuse_swrstLanded (r : Reason) (s : State) : (refuse r s).swrstLanded = s.swrstLanded := rfl
@[simp] theorem refuse_irqPend (r : Reason) (s : State) : (refuse r s).irqPend = s.irqPend := rfl
@[simp] theorem refuse_irqEn (r : Reason) (s : State) : (refuse r s).irqEn = s.irqEn := rfl
@[simp] theorem refuse_irqLocked (r : Reason) (s : State) : (refuse r s).irqLocked = s.irqLocked := rfl
@[simp] theorem refuse_ctx (r : Reason) (s : State) : (refuse r s).ctx = s.ctx := rfl
@[simp] theorem refuse_lastMark (r : Reason) (s : State) : (refuse r s).lastMark = s.lastMark := rfl
@[simp] theorem refuse_tickCount (r : Reason) (s : State) : (refuse r s).tickCount = s.tickCount := rfl
@[simp] theorem refuse_target (r : Reason) (s : State) : (refuse r s).target = s.target := rfl
@[simp] theorem refuse_inited (r : Reason) (s : State) : (refuse r s).inited = s.inited := rfl
@[simp] theorem refuse_refused (r : Reason) (s : State) : (refuse r s).refused = true := rfl
@[simp] theorem refuse_log (r : Reason) (s : State) : (refuse r s).log = s.log ++ [.refused r] := rfl
@[simp] theorem refuse_seqNormal (r : Reason) (s : State) : (refuse r s).seqNormal = s.seqNormal := rfl
@[simp] theorem refuse_seqIsr (r : Reason) (s : State) : (refuse r s).seqIsr = s.seqIsr := rfl
@[simp] theorem refuse_seqAnn (r : Reason) (s : State) : (refuse r s).seqAnn = s.seqAnn := rfl
@[simp] theorem refuse_seqCall (r : Reason) (s : State) : (refuse r s).seqCall = s.seqCall := rfl
@[simp] theorem refuse_prims (r : Reason) (s : State) : (refuse r s).prims = s.prims := rfl
@[simp] theorem refuse_dest (r : Reason) (s : State) : (refuse r s).dest = s.dest := rfl
@[simp] theorem refuse_issuer (r : Reason) (s : State) : (refuse r s).issuer = s.issuer := rfl
@[simp] theorem refuse_sched (r : Reason) (s : State) : (refuse r s).sched = s.sched := rfl
@[simp] theorem refuse_fresh (r : Reason) (s : State) : (refuse r s).fresh = s.fresh := rfl

/-! ### `latch` -/

@[simp] theorem latch_cfg (s : State) : (latch s).cfg = s.cfg := rfl
@[simp] theorem latch_count (s : State) : (latch s).count = s.count := rfl
@[simp] theorem latch_comp (s : State) : (latch s).comp = s.comp := rfl
@[simp] theorem latch_ctrl (s : State) : (latch s).ctrl = s.ctrl := rfl
@[simp] theorem latch_inten (s : State) : (latch s).inten = s.inten := rfl
@[simp] theorem latch_intflag (s : State) : (latch s).intflag = s.intflag := rfl
@[simp] theorem latch_syncbusy (s : State) : (latch s).syncbusy = s.syncbusy := rfl
@[simp] theorem latch_syncOp (s : State) : (latch s).syncOp = s.syncOp := rfl
@[simp] theorem latch_countSnap (s : State) : (latch s).countSnap = s.countSnap := rfl
@[simp] theorem latch_swrstLanded (s : State) : (latch s).swrstLanded = s.swrstLanded := rfl
@[simp] theorem latch_irqPend (s : State) : (latch s).irqPend = (s.irqPend || (s.ctx == .normal && s.level)) := rfl
@[simp] theorem latch_irqEn (s : State) : (latch s).irqEn = s.irqEn := rfl
@[simp] theorem latch_irqLocked (s : State) : (latch s).irqLocked = s.irqLocked := rfl
@[simp] theorem latch_ctx (s : State) : (latch s).ctx = s.ctx := rfl
@[simp] theorem latch_lastMark (s : State) : (latch s).lastMark = s.lastMark := rfl
@[simp] theorem latch_tickCount (s : State) : (latch s).tickCount = s.tickCount := rfl
@[simp] theorem latch_target (s : State) : (latch s).target = s.target := rfl
@[simp] theorem latch_inited (s : State) : (latch s).inited = s.inited := rfl
@[simp] theorem latch_refused (s : State) : (latch s).refused = s.refused := rfl
@[simp] theorem latch_log (s : State) : (latch s).log = s.log := rfl
@[simp] theorem latch_seqNormal (s : State) : (latch s).seqNormal = s.seqNormal := rfl
@[simp] theorem latch_seqIsr (s : State) : (latch s).seqIsr = s.seqIsr := rfl
@[simp] theorem latch_seqAnn (s : State) : (latch s).seqAnn = s.seqAnn := rfl
@[simp] theorem latch_seqCall (s : State) : (latch s).seqCall = s.seqCall := rfl
@[simp] theorem latch_prims (s : State) : (latch s).prims = s.prims := rfl
@[simp] theorem latch_dest (s : State) : (latch s).dest = s.dest := rfl
@[simp] theorem latch_issuer (s : State) : (latch s).issuer = s.issuer := rfl
@[simp] theorem latch_sched (s : State) : (latch s).sched = s.sched := rfl
@[simp] theorem latch_fresh (s : State) : (latch s).fresh = s.fresh := rfl

/-! ### `enterInterrupt` -/

@[simp] theorem enterInterrupt_cfg (s : State) : (enterInterrupt s).cfg = s.cfg := rfl
@[simp] theorem enterInterrupt_count (s : State) : (enterInterrupt s).count = s.count := rfl
@[simp] theorem enterInterrupt_comp (s : State) : (enterInterrupt s).comp = s.comp := rfl
@[simp] theorem enterInterrupt_ctrl (s : State) : (enterInterrupt s).ctrl = s.ctrl := rfl
@[simp] theorem enterInterrupt_inten (s : State) : (enterInterrupt s).inten = s.inten := rfl
@[simp] theorem enterInterrupt_intflag (s : State) : (enterInterrupt s).intflag = s.intflag := rfl
@[simp] theorem enterInterrupt_syncbusy (s : State) : (enterInterrupt s).syncbusy = s.syncbusy := rfl
@[simp] theorem enterInterrupt_syncOp (s : State) : (enterInterrupt s).syncOp = s.syncOp := rfl
@[simp] theorem enterInterrupt_countSnap (s : State) : (enterInterrupt s).countSnap = s.countSnap := rfl
@[simp] theorem enterInterrupt_swrstLanded (s : State) : (enterInterrupt s).swrstLanded = s.swrstLanded := rfl
@[simp] theorem enterInterrupt_irqPend (s : State) : (enterInterrupt s).irqPend = false := rfl
@[simp] theorem enterInterrupt_irqEn (s : State) : (enterInterrupt s).irqEn = s.irqEn := rfl
@[simp] theorem enterInterrupt_irqLocked (s : State) : (enterInterrupt s).irqLocked = s.irqLocked := rfl
@[simp] theorem enterInterrupt_ctx (s : State) : (enterInterrupt s).ctx = .isr := rfl
@[simp] theorem enterInterrupt_lastMark (s : State) : (enterInterrupt s).lastMark = s.lastMark := rfl
@[simp] theorem enterInterrupt_tickCount (s : State) : (enterInterrupt s).tickCount = s.tickCount := rfl
@[simp] theorem enterInterrupt_target (s : State) : (enterInterrupt s).target = s.target := rfl
@[simp] theorem enterInterrupt_inited (s : State) : (enterInterrupt s).inited = s.inited := rfl
@[simp] theorem enterInterrupt_refused (s : State) : (enterInterrupt s).refused = s.refused := rfl
@[simp] theorem enterInterrupt_log (s : State) : (enterInterrupt s).log = s.log := rfl
@[simp] theorem enterInterrupt_seqNormal (s : State) : (enterInterrupt s).seqNormal = s.seqNormal := rfl
@[simp] theorem enterInterrupt_seqIsr (s : State) : (enterInterrupt s).seqIsr = some (Frame.start (handlerOf s.cfg.mode)) := rfl
@[simp] theorem enterInterrupt_seqAnn (s : State) : (enterInterrupt s).seqAnn = s.seqAnn := rfl
@[simp] theorem enterInterrupt_seqCall (s : State) : (enterInterrupt s).seqCall = s.seqCall := rfl
@[simp] theorem enterInterrupt_prims (s : State) : (enterInterrupt s).prims = s.prims := rfl
@[simp] theorem enterInterrupt_dest (s : State) : (enterInterrupt s).dest = s.dest := rfl
@[simp] theorem enterInterrupt_issuer (s : State) : (enterInterrupt s).issuer = s.issuer := rfl
@[simp] theorem enterInterrupt_sched (s : State) : (enterInterrupt s).sched = s.sched := rfl
@[simp] theorem enterInterrupt_fresh (s : State) : (enterInterrupt s).fresh = s.fresh := rfl

/-! ### `returnFromInterrupt` -/

@[simp] theorem returnFromInterrupt_cfg (s : State) : (returnFromInterrupt s).cfg = s.cfg := rfl
@[simp] theorem returnFromInterrupt_count (s : State) : (returnFromInterrupt s).count = s.count := rfl
@[simp] theorem returnFromInterrupt_comp (s : State) : (returnFromInterrupt s).comp = s.comp := rfl
@[simp] theorem returnFromInterrupt_ctrl (s : State) : (returnFromInterrupt s).ctrl = s.ctrl := rfl
@[simp] theorem returnFromInterrupt_inten (s : State) : (returnFromInterrupt s).inten = s.inten := rfl
@[simp] theorem returnFromInterrupt_intflag (s : State) : (returnFromInterrupt s).intflag = s.intflag := rfl
@[simp] theorem returnFromInterrupt_syncbusy (s : State) : (returnFromInterrupt s).syncbusy = s.syncbusy := rfl
@[simp] theorem returnFromInterrupt_syncOp (s : State) : (returnFromInterrupt s).syncOp = s.syncOp := rfl
@[simp] theorem returnFromInterrupt_countSnap (s : State) : (returnFromInterrupt s).countSnap = s.countSnap := rfl
@[simp] theorem returnFromInterrupt_swrstLanded (s : State) : (returnFromInterrupt s).swrstLanded = s.swrstLanded := rfl
@[simp] theorem returnFromInterrupt_irqPend (s : State) : (returnFromInterrupt s).irqPend = (s.irqPend || s.level) := rfl
@[simp] theorem returnFromInterrupt_irqEn (s : State) : (returnFromInterrupt s).irqEn = s.irqEn := rfl
@[simp] theorem returnFromInterrupt_irqLocked (s : State) : (returnFromInterrupt s).irqLocked = s.irqLocked := rfl
@[simp] theorem returnFromInterrupt_ctx (s : State) : (returnFromInterrupt s).ctx = .normal := rfl
@[simp] theorem returnFromInterrupt_lastMark (s : State) : (returnFromInterrupt s).lastMark = s.lastMark := rfl
@[simp] theorem returnFromInterrupt_tickCount (s : State) : (returnFromInterrupt s).tickCount = s.tickCount := rfl
@[simp] theorem returnFromInterrupt_target (s : State) : (returnFromInterrupt s).target = s.target := rfl
@[simp] theorem returnFromInterrupt_inited (s : State) : (returnFromInterrupt s).inited = s.inited := rfl
@[simp] theorem returnFromInterrupt_refused (s : State) : (returnFromInterrupt s).refused = s.refused := rfl
@[simp] theorem returnFromInterrupt_log (s : State) : (returnFromInterrupt s).log = s.log := rfl
@[simp] theorem returnFromInterrupt_seqNormal (s : State) : (returnFromInterrupt s).seqNormal = s.seqNormal := rfl
@[simp] theorem returnFromInterrupt_seqIsr (s : State) : (returnFromInterrupt s).seqIsr = none := rfl
@[simp] theorem returnFromInterrupt_seqAnn (s : State) : (returnFromInterrupt s).seqAnn = s.seqAnn := rfl
@[simp] theorem returnFromInterrupt_seqCall (s : State) : (returnFromInterrupt s).seqCall = s.seqCall := rfl
@[simp] theorem returnFromInterrupt_prims (s : State) : (returnFromInterrupt s).prims = s.prims := rfl
@[simp] theorem returnFromInterrupt_dest (s : State) : (returnFromInterrupt s).dest = s.dest := rfl
@[simp] theorem returnFromInterrupt_issuer (s : State) : (returnFromInterrupt s).issuer = s.issuer := rfl
@[simp] theorem returnFromInterrupt_sched (s : State) : (returnFromInterrupt s).sched = s.sched := rfl
@[simp] theorem returnFromInterrupt_fresh (s : State) : (returnFromInterrupt s).fresh = s.fresh := rfl

/-! ### `softwareReset` -/

@[simp] theorem softwareReset_cfg (s : State) : (softwareReset s).cfg = s.cfg := rfl
@[simp] theorem softwareReset_count (s : State) : (softwareReset s).count = 0 := rfl
@[simp] theorem softwareReset_comp (s : State) : (softwareReset s).comp = 0 := rfl
@[simp] theorem softwareReset_ctrl (s : State) : (softwareReset s).ctrl = resetCtrl := rfl
@[simp] theorem softwareReset_inten (s : State) : (softwareReset s).inten = Flags.empty := rfl
@[simp] theorem softwareReset_intflag (s : State) : (softwareReset s).intflag = Flags.empty := rfl
@[simp] theorem softwareReset_syncbusy (s : State) : (softwareReset s).syncbusy = false := rfl
@[simp] theorem softwareReset_syncOp (s : State) : (softwareReset s).syncOp = .none := rfl
@[simp] theorem softwareReset_countSnap (s : State) : (softwareReset s).countSnap = s.countSnap := rfl
@[simp] theorem softwareReset_swrstLanded (s : State) : (softwareReset s).swrstLanded = true := rfl
@[simp] theorem softwareReset_irqPend (s : State) : (softwareReset s).irqPend = s.irqPend := rfl
@[simp] theorem softwareReset_irqEn (s : State) : (softwareReset s).irqEn = s.irqEn := rfl
@[simp] theorem softwareReset_irqLocked (s : State) : (softwareReset s).irqLocked = s.irqLocked := rfl
@[simp] theorem softwareReset_ctx (s : State) : (softwareReset s).ctx = s.ctx := rfl
@[simp] theorem softwareReset_lastMark (s : State) : (softwareReset s).lastMark = s.lastMark := rfl
@[simp] theorem softwareReset_tickCount (s : State) : (softwareReset s).tickCount = s.tickCount := rfl
@[simp] theorem softwareReset_target (s : State) : (softwareReset s).target = s.target := rfl
@[simp] theorem softwareReset_inited (s : State) : (softwareReset s).inited = s.inited := rfl
@[simp] theorem softwareReset_refused (s : State) : (softwareReset s).refused = s.refused := rfl
@[simp] theorem softwareReset_log (s : State) : (softwareReset s).log = s.log := rfl
@[simp] theorem softwareReset_seqNormal (s : State) : (softwareReset s).seqNormal = s.seqNormal := rfl
@[simp] theorem softwareReset_seqIsr (s : State) : (softwareReset s).seqIsr = s.seqIsr := rfl
@[simp] theorem softwareReset_seqAnn (s : State) : (softwareReset s).seqAnn = s.seqAnn := rfl
@[simp] theorem softwareReset_seqCall (s : State) : (softwareReset s).seqCall = s.seqCall := rfl
@[simp] theorem softwareReset_prims (s : State) : (softwareReset s).prims = s.prims := rfl
@[simp] theorem softwareReset_dest (s : State) : (softwareReset s).dest = s.dest := rfl
@[simp] theorem softwareReset_issuer (s : State) : (softwareReset s).issuer = s.issuer := rfl
@[simp] theorem softwareReset_sched (s : State) : (softwareReset s).sched = s.sched := rfl
@[simp] theorem softwareReset_fresh (s : State) : (softwareReset s).fresh = s.fresh := rfl

/-! ### `unlockWith` -/

@[simp] theorem unlockWith_cfg (key : Word) (s : State) : (unlockWith key s).cfg = s.cfg := rfl
@[simp] theorem unlockWith_count (key : Word) (s : State) : (unlockWith key s).count = s.count := rfl
@[simp] theorem unlockWith_comp (key : Word) (s : State) : (unlockWith key s).comp = s.comp := rfl
@[simp] theorem unlockWith_ctrl (key : Word) (s : State) : (unlockWith key s).ctrl = s.ctrl := rfl
@[simp] theorem unlockWith_inten (key : Word) (s : State) : (unlockWith key s).inten = s.inten := rfl
@[simp] theorem unlockWith_intflag (key : Word) (s : State) : (unlockWith key s).intflag = s.intflag := rfl
@[simp] theorem unlockWith_syncbusy (key : Word) (s : State) : (unlockWith key s).syncbusy = s.syncbusy := rfl
@[simp] theorem unlockWith_syncOp (key : Word) (s : State) : (unlockWith key s).syncOp = s.syncOp := rfl
@[simp] theorem unlockWith_countSnap (key : Word) (s : State) : (unlockWith key s).countSnap = s.countSnap := rfl
@[simp] theorem unlockWith_swrstLanded (key : Word) (s : State) : (unlockWith key s).swrstLanded = s.swrstLanded := rfl
@[simp] theorem unlockWith_irqPend (key : Word) (s : State) : (unlockWith key s).irqPend = s.irqPend := rfl
@[simp] theorem unlockWith_irqEn (key : Word) (s : State) : (unlockWith key s).irqEn = s.irqEn := rfl
@[simp] theorem unlockWith_irqLocked (key : Word) (s : State) : (unlockWith key s).irqLocked = key.getLsbD 0 := rfl
@[simp] theorem unlockWith_ctx (key : Word) (s : State) : (unlockWith key s).ctx = s.ctx := rfl
@[simp] theorem unlockWith_lastMark (key : Word) (s : State) : (unlockWith key s).lastMark = s.lastMark := rfl
@[simp] theorem unlockWith_tickCount (key : Word) (s : State) : (unlockWith key s).tickCount = s.tickCount := rfl
@[simp] theorem unlockWith_target (key : Word) (s : State) : (unlockWith key s).target = s.target := rfl
@[simp] theorem unlockWith_inited (key : Word) (s : State) : (unlockWith key s).inited = s.inited := rfl
@[simp] theorem unlockWith_refused (key : Word) (s : State) : (unlockWith key s).refused = s.refused := rfl
@[simp] theorem unlockWith_log (key : Word) (s : State) : (unlockWith key s).log = s.log := rfl
@[simp] theorem unlockWith_seqNormal (key : Word) (s : State) : (unlockWith key s).seqNormal = s.seqNormal := rfl
@[simp] theorem unlockWith_seqIsr (key : Word) (s : State) : (unlockWith key s).seqIsr = s.seqIsr := rfl
@[simp] theorem unlockWith_seqAnn (key : Word) (s : State) : (unlockWith key s).seqAnn = s.seqAnn := rfl
@[simp] theorem unlockWith_seqCall (key : Word) (s : State) : (unlockWith key s).seqCall = s.seqCall := rfl
@[simp] theorem unlockWith_prims (key : Word) (s : State) : (unlockWith key s).prims = s.prims := rfl
@[simp] theorem unlockWith_dest (key : Word) (s : State) : (unlockWith key s).dest = s.dest := rfl
@[simp] theorem unlockWith_issuer (key : Word) (s : State) : (unlockWith key s).issuer = s.issuer := rfl
@[simp] theorem unlockWith_sched (key : Word) (s : State) : (unlockWith key s).sched = s.sched := rfl
@[simp] theorem unlockWith_fresh (key : Word) (s : State) : (unlockWith key s).fresh = s.fresh := rfl

/-! ### `setCall` -/

@[simp] theorem setCall_cfg (s : State) (o : Option Frame) : (s.setCall o).cfg = s.cfg := rfl
@[simp] theorem setCall_count (s : State) (o : Option Frame) : (s.setCall o).count = s.count := rfl
@[simp] theorem setCall_comp (s : State) (o : Option Frame) : (s.setCall o).comp = s.comp := rfl
@[simp] theorem setCall_ctrl (s : State) (o : Option Frame) : (s.setCall o).ctrl = s.ctrl := rfl
@[simp] theorem setCall_inten (s : State) (o : Option Frame) : (s.setCall o).inten = s.inten := rfl
@[simp] theorem setCall_intflag (s : State) (o : Option Frame) : (s.setCall o).intflag = s.intflag := rfl
@[simp] theorem setCall_syncbusy (s : State) (o : Option Frame) : (s.setCall o).syncbusy = s.syncbusy := rfl
@[simp] theorem setCall_syncOp (s : State) (o : Option Frame) : (s.setCall o).syncOp = s.syncOp := rfl
@[simp] theorem setCall_countSnap (s : State) (o : Option Frame) : (s.setCall o).countSnap = s.countSnap := rfl
@[simp] theorem setCall_swrstLanded (s : State) (o : Option Frame) : (s.setCall o).swrstLanded = s.swrstLanded := rfl
@[simp] theorem setCall_irqPend (s : State) (o : Option Frame) : (s.setCall o).irqPend = s.irqPend := rfl
@[simp] theorem setCall_irqEn (s : State) (o : Option Frame) : (s.setCall o).irqEn = s.irqEn := rfl
@[simp] theorem setCall_irqLocked (s : State) (o : Option Frame) : (s.setCall o).irqLocked = s.irqLocked := rfl
@[simp] theorem setCall_ctx (s : State) (o : Option Frame) : (s.setCall o).ctx = s.ctx := rfl
@[simp] theorem setCall_lastMark (s : State) (o : Option Frame) : (s.setCall o).lastMark = s.lastMark := rfl
@[simp] theorem setCall_tickCount (s : State) (o : Option Frame) : (s.setCall o).tickCount = s.tickCount := rfl
@[simp] theorem setCall_target (s : State) (o : Option Frame) : (s.setCall o).target = s.target := rfl
@[simp] theorem setCall_inited (s : State) (o : Option Frame) : (s.setCall o).inited = s.inited := rfl
@[simp] theorem setCall_refused (s : State) (o : Option Frame) : (s.setCall o).refused = s.refused := rfl
@[simp] theorem setCall_log (s : State) (o : Option Frame) : (s.setCall o).log = s.log := rfl
@[simp] theorem setCall_seqNormal (s : State) (o : Option Frame) : (s.setCall o).seqNormal = if s.ctx = .normal then o else s.seqNormal := rfl
@[simp] theorem setCall_seqIsr (s : State) (o : Option Frame) : (s.setCall o).seqIsr = s.seqIsr := rfl
@[simp] theorem setCall_seqAnn (s : State) (o : Option Frame) : (s.setCall o).seqAnn = s.seqAnn := rfl
@[simp] theorem setCall_seqCall (s : State) (o : Option Frame) : (s.setCall o).seqCall = if s.ctx = .normal then s.seqCall else o := rfl
@[simp] theorem setCall_prims (s : State) (o : Option Frame) : (s.setCall o).prims = s.prims := rfl
@[simp] theorem setCall_dest (s : State) (o : Option Frame) : (s.setCall o).dest = s.dest := rfl
@[simp] theorem setCall_issuer (s : State) (o : Option Frame) : (s.setCall o).issuer = s.issuer := rfl
@[simp] theorem setCall_sched (s : State) (o : Option Frame) : (s.setCall o).sched = s.sched := rfl
@[simp] theorem setCall_fresh (s : State) (o : Option Frame) : (s.setCall o).fresh = s.fresh := rfl

/-! ### `endCall` -/

@[simp] theorem endCall_cfg (s : State) (op : Call) (v : Result) : (s.endCall op v).cfg = s.cfg := rfl
@[simp] theorem endCall_count (s : State) (op : Call) (v : Result) : (s.endCall op v).count = s.count := rfl
@[simp] theorem endCall_comp (s : State) (op : Call) (v : Result) : (s.endCall op v).comp = s.comp := rfl
@[simp] theorem endCall_ctrl (s : State) (op : Call) (v : Result) : (s.endCall op v).ctrl = s.ctrl := rfl
@[simp] theorem endCall_inten (s : State) (op : Call) (v : Result) : (s.endCall op v).inten = s.inten := rfl
@[simp] theorem endCall_intflag (s : State) (op : Call) (v : Result) : (s.endCall op v).intflag = s.intflag := rfl
@[simp] theorem endCall_syncbusy (s : State) (op : Call) (v : Result) : (s.endCall op v).syncbusy = s.syncbusy := rfl
@[simp] theorem endCall_syncOp (s : State) (op : Call) (v : Result) : (s.endCall op v).syncOp = s.syncOp := rfl
@[simp] theorem endCall_countSnap (s : State) (op : Call) (v : Result) : (s.endCall op v).countSnap = s.countSnap := rfl
@[simp] theorem endCall_swrstLanded (s : State) (op : Call) (v : Result) : (s.endCall op v).swrstLanded = s.swrstLanded := rfl
@[simp] theorem endCall_irqPend (s : State) (op : Call) (v : Result) : (s.endCall op v).irqPend = s.irqPend := rfl
@[simp] theorem endCall_irqEn (s : State) (op : Call) (v : Result) : (s.endCall op v).irqEn = s.irqEn := rfl
@[simp] theorem endCall_irqLocked (s : State) (op : Call) (v : Result) : (s.endCall op v).irqLocked = s.irqLocked := rfl
@[simp] theorem endCall_ctx (s : State) (op : Call) (v : Result) : (s.endCall op v).ctx = s.ctx := rfl
@[simp] theorem endCall_lastMark (s : State) (op : Call) (v : Result) : (s.endCall op v).lastMark = s.lastMark := rfl
@[simp] theorem endCall_tickCount (s : State) (op : Call) (v : Result) : (s.endCall op v).tickCount = s.tickCount := rfl
@[simp] theorem endCall_target (s : State) (op : Call) (v : Result) : (s.endCall op v).target = s.target := rfl
@[simp] theorem endCall_inited (s : State) (op : Call) (v : Result) : (s.endCall op v).inited = s.inited := rfl
@[simp] theorem endCall_refused (s : State) (op : Call) (v : Result) : (s.endCall op v).refused = s.refused := rfl
@[simp] theorem endCall_log (s : State) (op : Call) (v : Result) : (s.endCall op v).log = s.log ++ [.returned op v] := rfl
@[simp] theorem endCall_seqNormal (s : State) (op : Call) (v : Result) : (s.endCall op v).seqNormal = if s.ctx = .normal then none else s.seqNormal := rfl
@[simp] theorem endCall_seqIsr (s : State) (op : Call) (v : Result) : (s.endCall op v).seqIsr = s.seqIsr := rfl
@[simp] theorem endCall_seqAnn (s : State) (op : Call) (v : Result) : (s.endCall op v).seqAnn = s.seqAnn := rfl
@[simp] theorem endCall_seqCall (s : State) (op : Call) (v : Result) : (s.endCall op v).seqCall = if s.ctx = .normal then s.seqCall else none := rfl
@[simp] theorem endCall_prims (s : State) (op : Call) (v : Result) : (s.endCall op v).prims = s.prims := rfl
@[simp] theorem endCall_dest (s : State) (op : Call) (v : Result) : (s.endCall op v).dest = s.dest := rfl
@[simp] theorem endCall_issuer (s : State) (op : Call) (v : Result) : (s.endCall op v).issuer = s.issuer := rfl
@[simp] theorem endCall_sched (s : State) (op : Call) (v : Result) : (s.endCall op v).sched = s.sched := rfl
@[simp] theorem endCall_fresh (s : State) (op : Call) (v : Result) : (s.endCall op v).fresh = s.fresh := rfl

/-! ### `storePrim` -/

@[simp] theorem storePrim_cfg (s : State) (f : Frame) : (s.storePrim f).cfg = s.cfg := rfl
@[simp] theorem storePrim_count (s : State) (f : Frame) : (s.storePrim f).count = s.count := rfl
@[simp] theorem storePrim_comp (s : State) (f : Frame) : (s.storePrim f).comp = s.comp := rfl
@[simp] theorem storePrim_ctrl (s : State) (f : Frame) : (s.storePrim f).ctrl = s.ctrl := rfl
@[simp] theorem storePrim_inten (s : State) (f : Frame) : (s.storePrim f).inten = s.inten := rfl
@[simp] theorem storePrim_intflag (s : State) (f : Frame) : (s.storePrim f).intflag = s.intflag := rfl
@[simp] theorem storePrim_syncbusy (s : State) (f : Frame) : (s.storePrim f).syncbusy = s.syncbusy := rfl
@[simp] theorem storePrim_syncOp (s : State) (f : Frame) : (s.storePrim f).syncOp = s.syncOp := rfl
@[simp] theorem storePrim_countSnap (s : State) (f : Frame) : (s.storePrim f).countSnap = s.countSnap := rfl
@[simp] theorem storePrim_swrstLanded (s : State) (f : Frame) : (s.storePrim f).swrstLanded = s.swrstLanded := rfl
@[simp] theorem storePrim_irqPend (s : State) (f : Frame) : (s.storePrim f).irqPend = s.irqPend := rfl
@[simp] theorem storePrim_irqEn (s : State) (f : Frame) : (s.storePrim f).irqEn = s.irqEn := rfl
@[simp] theorem storePrim_irqLocked (s : State) (f : Frame) : (s.storePrim f).irqLocked = s.irqLocked := rfl
@[simp] theorem storePrim_ctx (s : State) (f : Frame) : (s.storePrim f).ctx = s.ctx := rfl
@[simp] theorem storePrim_lastMark (s : State) (f : Frame) : (s.storePrim f).lastMark = s.lastMark := rfl
@[simp] theorem storePrim_tickCount (s : State) (f : Frame) : (s.storePrim f).tickCount = s.tickCount := rfl
@[simp] theorem storePrim_target (s : State) (f : Frame) : (s.storePrim f).target = s.target := rfl
@[simp] theorem storePrim_inited (s : State) (f : Frame) : (s.storePrim f).inited = s.inited := rfl
@[simp] theorem storePrim_refused (s : State) (f : Frame) : (s.storePrim f).refused = s.refused := rfl
@[simp] theorem storePrim_log (s : State) (f : Frame) : (s.storePrim f).log = s.log := rfl
@[simp] theorem storePrim_seqNormal (s : State) (f : Frame) : (s.storePrim f).seqNormal = s.seqNormal := rfl
@[simp] theorem storePrim_seqIsr (s : State) (f : Frame) : (s.storePrim f).seqIsr = s.seqIsr := rfl
@[simp] theorem storePrim_seqAnn (s : State) (f : Frame) : (s.storePrim f).seqAnn = s.seqAnn := rfl
@[simp] theorem storePrim_seqCall (s : State) (f : Frame) : (s.storePrim f).seqCall = s.seqCall := rfl
@[simp] theorem storePrim_dest (s : State) (f : Frame) : (s.storePrim f).dest = s.dest := rfl
@[simp] theorem storePrim_issuer (s : State) (f : Frame) : (s.storePrim f).issuer = s.issuer := rfl
@[simp] theorem storePrim_sched (s : State) (f : Frame) : (s.storePrim f).sched = s.sched := rfl
@[simp] theorem storePrim_fresh (s : State) (f : Frame) : (s.storePrim f).fresh = s.fresh := rfl

/-! ### `endPrim` -/

@[simp] theorem endPrim_cfg (s : State) : (s.endPrim).cfg = s.cfg := rfl
@[simp] theorem endPrim_count (s : State) : (s.endPrim).count = s.count := rfl
@[simp] theorem endPrim_comp (s : State) : (s.endPrim).comp = s.comp := rfl
@[simp] theorem endPrim_ctrl (s : State) : (s.endPrim).ctrl = s.ctrl := rfl
@[simp] theorem endPrim_inten (s : State) : (s.endPrim).inten = s.inten := rfl
@[simp] theorem endPrim_intflag (s : State) : (s.endPrim).intflag = s.intflag := rfl
@[simp] theorem endPrim_syncbusy (s : State) : (s.endPrim).syncbusy = s.syncbusy := rfl
@[simp] theorem endPrim_syncOp (s : State) : (s.endPrim).syncOp = s.syncOp := rfl
@[simp] theorem endPrim_countSnap (s : State) : (s.endPrim).countSnap = s.countSnap := rfl
@[simp] theorem endPrim_swrstLanded (s : State) : (s.endPrim).swrstLanded = s.swrstLanded := rfl
@[simp] theorem endPrim_irqPend (s : State) : (s.endPrim).irqPend = s.irqPend := rfl
@[simp] theorem endPrim_irqEn (s : State) : (s.endPrim).irqEn = s.irqEn := rfl
@[simp] theorem endPrim_irqLocked (s : State) : (s.endPrim).irqLocked = s.irqLocked := rfl
@[simp] theorem endPrim_ctx (s : State) : (s.endPrim).ctx = s.ctx := rfl
@[simp] theorem endPrim_lastMark (s : State) : (s.endPrim).lastMark = s.lastMark := rfl
@[simp] theorem endPrim_tickCount (s : State) : (s.endPrim).tickCount = s.tickCount := rfl
@[simp] theorem endPrim_target (s : State) : (s.endPrim).target = s.target := rfl
@[simp] theorem endPrim_inited (s : State) : (s.endPrim).inited = s.inited := rfl
@[simp] theorem endPrim_refused (s : State) : (s.endPrim).refused = s.refused := rfl
@[simp] theorem endPrim_log (s : State) : (s.endPrim).log = s.log := rfl
@[simp] theorem endPrim_seqNormal (s : State) : (s.endPrim).seqNormal = s.seqNormal := rfl
@[simp] theorem endPrim_seqIsr (s : State) : (s.endPrim).seqIsr = s.seqIsr := rfl
@[simp] theorem endPrim_seqAnn (s : State) : (s.endPrim).seqAnn = s.seqAnn := rfl
@[simp] theorem endPrim_seqCall (s : State) : (s.endPrim).seqCall = s.seqCall := rfl
@[simp] theorem endPrim_dest (s : State) : (s.endPrim).dest = s.dest := rfl
@[simp] theorem endPrim_issuer (s : State) : (s.endPrim).issuer = s.issuer := rfl
@[simp] theorem endPrim_sched (s : State) : (s.endPrim).sched = s.sched := rfl
@[simp] theorem endPrim_fresh (s : State) : (s.endPrim).fresh = s.fresh := rfl

/-! ### `issuing` -/

@[simp] theorem issuing_cfg (w : OpWord) (s : State) : (s.issuing w).cfg = s.cfg := rfl
@[simp] theorem issuing_count (w : OpWord) (s : State) : (s.issuing w).count = s.count := rfl
@[simp] theorem issuing_comp (w : OpWord) (s : State) : (s.issuing w).comp = s.comp := rfl
@[simp] theorem issuing_ctrl (w : OpWord) (s : State) : (s.issuing w).ctrl = s.ctrl := rfl
@[simp] theorem issuing_inten (w : OpWord) (s : State) : (s.issuing w).inten = s.inten := rfl
@[simp] theorem issuing_intflag (w : OpWord) (s : State) : (s.issuing w).intflag = s.intflag := rfl
@[simp] theorem issuing_syncbusy (w : OpWord) (s : State) : (s.issuing w).syncbusy = s.syncbusy := rfl
@[simp] theorem issuing_syncOp (w : OpWord) (s : State) : (s.issuing w).syncOp = s.syncOp := rfl
@[simp] theorem issuing_countSnap (w : OpWord) (s : State) : (s.issuing w).countSnap = s.countSnap := rfl
@[simp] theorem issuing_swrstLanded (w : OpWord) (s : State) : (s.issuing w).swrstLanded = s.swrstLanded := rfl
@[simp] theorem issuing_irqPend (w : OpWord) (s : State) : (s.issuing w).irqPend = s.irqPend := rfl
@[simp] theorem issuing_irqEn (w : OpWord) (s : State) : (s.issuing w).irqEn = s.irqEn := rfl
@[simp] theorem issuing_irqLocked (w : OpWord) (s : State) : (s.issuing w).irqLocked = s.irqLocked := rfl
@[simp] theorem issuing_ctx (w : OpWord) (s : State) : (s.issuing w).ctx = s.ctx := rfl
@[simp] theorem issuing_lastMark (w : OpWord) (s : State) : (s.issuing w).lastMark = s.lastMark := rfl
@[simp] theorem issuing_tickCount (w : OpWord) (s : State) : (s.issuing w).tickCount = s.tickCount := rfl
@[simp] theorem issuing_target (w : OpWord) (s : State) : (s.issuing w).target = s.target := rfl
@[simp] theorem issuing_inited (w : OpWord) (s : State) : (s.issuing w).inited = s.inited := rfl
@[simp] theorem issuing_refused (w : OpWord) (s : State) : (s.issuing w).refused = s.refused := rfl
@[simp] theorem issuing_log (w : OpWord) (s : State) : (s.issuing w).log = s.log := rfl
@[simp] theorem issuing_seqNormal (w : OpWord) (s : State) : (s.issuing w).seqNormal = s.seqNormal := rfl
@[simp] theorem issuing_seqIsr (w : OpWord) (s : State) : (s.issuing w).seqIsr = s.seqIsr := rfl
@[simp] theorem issuing_seqAnn (w : OpWord) (s : State) : (s.issuing w).seqAnn = s.seqAnn := rfl
@[simp] theorem issuing_seqCall (w : OpWord) (s : State) : (s.issuing w).seqCall = s.seqCall := rfl
@[simp] theorem issuing_prims (w : OpWord) (s : State) : (s.issuing w).prims = s.prims := rfl
@[simp] theorem issuing_dest (w : OpWord) (s : State) : (s.issuing w).dest = s.dest := rfl
@[simp] theorem issuing_issuer (w : OpWord) (s : State) : (s.issuing w).issuer = s.issuer := rfl
@[simp] theorem issuing_sched (w : OpWord) (s : State) : (s.issuing w).sched = .issue w :: s.sched := rfl
@[simp] theorem issuing_fresh (w : OpWord) (s : State) : (s.issuing w).fresh = s.fresh := rfl

/-! ### `setVar` -/

@[simp] theorem setVar_cfg (s : State) (x : Var) (v : Word) : (s.setVar x v).cfg = s.cfg := by
  cases x <;> rfl
@[simp] theorem setVar_count (s : State) (x : Var) (v : Word) : (s.setVar x v).count = s.count := by
  cases x <;> rfl
@[simp] theorem setVar_comp (s : State) (x : Var) (v : Word) : (s.setVar x v).comp = s.comp := by
  cases x <;> rfl
@[simp] theorem setVar_ctrl (s : State) (x : Var) (v : Word) : (s.setVar x v).ctrl = s.ctrl := by
  cases x <;> rfl
@[simp] theorem setVar_inten (s : State) (x : Var) (v : Word) : (s.setVar x v).inten = s.inten := by
  cases x <;> rfl
@[simp] theorem setVar_intflag (s : State) (x : Var) (v : Word) : (s.setVar x v).intflag = s.intflag := by
  cases x <;> rfl
@[simp] theorem setVar_syncbusy (s : State) (x : Var) (v : Word) : (s.setVar x v).syncbusy = s.syncbusy := by
  cases x <;> rfl
@[simp] theorem setVar_syncOp (s : State) (x : Var) (v : Word) : (s.setVar x v).syncOp = s.syncOp := by
  cases x <;> rfl
@[simp] theorem setVar_countSnap (s : State) (x : Var) (v : Word) : (s.setVar x v).countSnap = s.countSnap := by
  cases x <;> rfl
@[simp] theorem setVar_swrstLanded (s : State) (x : Var) (v : Word) : (s.setVar x v).swrstLanded = s.swrstLanded := by
  cases x <;> rfl
@[simp] theorem setVar_irqPend (s : State) (x : Var) (v : Word) : (s.setVar x v).irqPend = s.irqPend := by
  cases x <;> rfl
@[simp] theorem setVar_irqEn (s : State) (x : Var) (v : Word) : (s.setVar x v).irqEn = s.irqEn := by
  cases x <;> rfl
@[simp] theorem setVar_irqLocked (s : State) (x : Var) (v : Word) : (s.setVar x v).irqLocked = s.irqLocked := by
  cases x <;> rfl
@[simp] theorem setVar_ctx (s : State) (x : Var) (v : Word) : (s.setVar x v).ctx = s.ctx := by
  cases x <;> rfl
@[simp] theorem setVar_inited (s : State) (x : Var) (v : Word) : (s.setVar x v).inited = s.inited := by
  cases x <;> rfl
@[simp] theorem setVar_refused (s : State) (x : Var) (v : Word) : (s.setVar x v).refused = s.refused := by
  cases x <;> rfl
@[simp] theorem setVar_log (s : State) (x : Var) (v : Word) : (s.setVar x v).log = s.log := by
  cases x <;> rfl
@[simp] theorem setVar_seqNormal (s : State) (x : Var) (v : Word) : (s.setVar x v).seqNormal = s.seqNormal := by
  cases x <;> rfl
@[simp] theorem setVar_seqIsr (s : State) (x : Var) (v : Word) : (s.setVar x v).seqIsr = s.seqIsr := by
  cases x <;> rfl
@[simp] theorem setVar_seqAnn (s : State) (x : Var) (v : Word) : (s.setVar x v).seqAnn = s.seqAnn := by
  cases x <;> rfl
@[simp] theorem setVar_seqCall (s : State) (x : Var) (v : Word) : (s.setVar x v).seqCall = s.seqCall := by
  cases x <;> rfl
@[simp] theorem setVar_prims (s : State) (x : Var) (v : Word) : (s.setVar x v).prims = s.prims := by
  cases x <;> rfl
@[simp] theorem setVar_dest (s : State) (x : Var) (v : Word) : (s.setVar x v).dest = s.dest := by
  cases x <;> rfl
@[simp] theorem setVar_issuer (s : State) (x : Var) (v : Word) : (s.setVar x v).issuer = s.issuer := by
  cases x <;> rfl
@[simp] theorem setVar_sched (s : State) (x : Var) (v : Word) : (s.setVar x v).sched = s.sched := by
  cases x <;> rfl
@[simp] theorem setVar_fresh (s : State) (x : Var) (v : Word) : (s.setVar x v).fresh = s.fresh := by
  cases x <;> rfl

@[simp] theorem setVar_lastMark (s : State) (x : Var) (v : Word) :
    (s.setVar x v).lastMark = if x = .lastMark then v else s.lastMark := by
  cases x <;> rfl
@[simp] theorem setVar_tickCount (s : State) (x : Var) (v : Word) :
    (s.setVar x v).tickCount = if x = .tickCount then v else s.tickCount := by
  cases x <;> rfl
@[simp] theorem setVar_target (s : State) (x : Var) (v : Word) :
    (s.setVar x v).target = if x = .target then v else s.target := by
  cases x <;> rfl

/-- A variable written is the value read back, and the other variables keep theirs (20 R62). -/
theorem var_setVar (s : State) (x y : Var) (v : Word) :
    (s.setVar x v).var y = if x = y then v else s.var y := by
  cases x <;> cases y <;> rfl

/-- Ending or storing a call's frame twice is storing the last one. -/
@[simp] theorem setCall_setCall (s : State) (o o' : Option Frame) :
    (s.setCall o).setCall o' = s.setCall o' := by
  cases h : s.ctx <;> simp [State.setCall, h]

/-- Storing the frame that is there changes nothing. -/
theorem setCall_callFrame (s : State) (o : Option Frame) (h : s.callFrame = o) : s.setCall o = s := by
  cases s with
  | mk cfg count comp ctrl inten intflag syncbusy syncOp countSnap swrstLanded irqPend irqEn irqLocked ctx
      lastMark tickCount target inited refused log seqNormal seqIsr seqAnn seqCall prims dest issuer sched fresh =>
    cases ctx <;> simp_all [State.setCall, State.callFrame]

/-- The call of the running context is the frame last stored. -/
@[simp] theorem callFrame_setCall (s : State) (o : Option Frame) : (s.setCall o).callFrame = o := by
  cases h : s.ctx <;> simp [State.callFrame, h]

/-- A new primitive comes last among those in flight. -/
theorem storePrim_prims_host (s : State) (f : Frame) (h : s.issuer = .host) :
    (s.storePrim f).prims = s.prims ++ [f] := by
  simp [State.storePrim, h]

/-- A primitive in flight keeps its place. -/
theorem storePrim_prims_program (s : State) (n : Nat) (f : Frame) (h : s.issuer = .program n) :
    (s.storePrim f).prims = s.prims.set n f := by
  simp [State.storePrim, h]

/-- A primitive that ends as it is issued was never in flight. -/
theorem endPrim_host (s : State) (h : s.issuer = .host) : s.endPrim = s := by
  unfold State.endPrim
  split
  · next n hn => exact absurd (h.symm.trans hn) (by simp)
  · rfl

/-- A primitive in flight that ends leaves the list. -/
theorem endPrim_prims_program (s : State) (n : Nat) (h : s.issuer = .program n) :
    s.endPrim.prims = s.prims.eraseIdx n := by
  simp [State.endPrim, h]

/-- Storing the frame that is there changes nothing. -/
theorem storePrim_same (s : State) (n : Nat) (f : Frame) (hi : s.issuer = .program n)
    (h : s.prims[n]? = some f) : s.storePrim f = s := by
  obtain ⟨hn, rfl⟩ := List.getElem?_eq_some_iff.mp h
  unfold State.storePrim
  split
  · next m hm =>
    obtain rfl : n = m := by simpa [hi] using hm
    rw [List.set_getElem_self hn]
  · next hm => exact absurd hi (hm n)

/-- Every primitive in flight after a frame is stored is that frame or was there. -/
theorem mem_storePrim {s : State} {f g : Frame} (h : g ∈ (s.storePrim f).prims) : g = f ∨ g ∈ s.prims := by
  simp only [State.storePrim] at h
  split at h
  · exact (List.mem_or_eq_of_mem_set h).symm
  · simpa [or_comm] using h

/-- Every primitive in flight after one ends was there. -/
theorem mem_endPrim {s : State} {g : Frame} (h : g ∈ s.endPrim.prims) : g ∈ s.prims := by
  simp only [State.endPrim] at h
  split at h
  · exact List.mem_of_mem_eraseIdx h
  · exact h

end Sys2Proof.Machine
end

