-- ==== Sys2Proof/Laws/Ops.lean ====
section
/-! SUPPORT. For each shared operation, one lemma that says once everything it can do. -/

namespace Sys2Proof.Machine

/-! ### The slot -/

theorem postSync_of_empty {op : SyncOp} {s : State} (h : s.syncOp = .none) :
    postSync op s = some { s with syncOp := op, syncbusy := true } := by
  simp [postSync, h]

theorem postSync_of_busy {op : SyncOp} {s : State} (h : s.syncOp ≠ .none) : postSync op s = none := by
  simp [postSync, h]

/-- A posted access that does not hold found the slot empty and filled it. -/
theorem postSync_eq_some {op : SyncOp} {s s' : State} (h : postSync op s = some s') :
    s.syncOp = .none ∧ s' = { s with syncOp := op, syncbusy := true } := by
  unfold postSync at h
  split at h
  · exact ⟨‹_›, (Option.some.inj h).symm⟩
  · cases h

theorem awaitSync_of_empty {s : State} (h : s.syncOp = .none) : awaitSync s = some s := by
  simp [awaitSync, h]

theorem awaitSync_of_busy {s : State} (h : s.syncOp ≠ .none) : awaitSync s = none := by
  simp [awaitSync, h]

/-- A wait that does not hold found the slot empty and changes nothing. -/
theorem awaitSync_eq_some {s s' : State} (h : awaitSync s = some s') : s.syncOp = .none ∧ s' = s := by
  unfold awaitSync at h
  split at h
  · exact ⟨‹_›, (Option.some.inj h).symm⟩
  · cases h

/-! ### Steps that may hold -/

@[simp] theorem orHold_none (f : Frame) (s : State) (go : State → State) :
    orHold f s none go = .next (s.setCall (some f)) := rfl

@[simp] theorem orHold_some (f : Frame) (s s' : State) (go : State → State) :
    orHold f s (some s') go = .next (go s') := rfl

/-- A step that may hold answers a next state: the frame stored and nothing else, or what it goes on to. -/
theorem orHold_cases {f : Frame} {s s' : State} {o : Option State} {go : State → State}
    (h : orHold f s o go = .next s') :
    (o = none ∧ s' = s.setCall (some f)) ∨ ∃ u, o = some u ∧ s' = go u := by
  cases o with
  | none => exact .inl ⟨rfl, by simpa using h.symm⟩
  | some u => exact .inr ⟨u, rfl, by simpa using h.symm⟩

/-! ### Who performs an operation -/

/-- An operation that answers a next state was refused on issue, started on issue, or continued. -/
theorem perform_cases {i : Instr} {admission : Option Reason} {body : Frame → State → Res} {s s' : State}
    (h : perform i admission body s = .next s') :
    (∃ r, s.issuer = .host ∧ admission = some r ∧ s' = refuse r s) ∨
    (s.issuer = .host ∧ admission = none ∧ body (Frame.start i) s = .next s') ∨
    (∃ f, s.issuer = .sequencer ∧ s.callFrame = some f ∧ body f s = .next s') := by
  unfold perform at h
  split at h
  · split at h
    · exact .inl ⟨_, ‹_›, rfl, by simpa using h.symm⟩
    · exact .inr (.inl ⟨‹_›, rfl, h⟩)
  · split at h
    · cases h
    · exact .inr (.inr ⟨_, ‹_›, ‹_›, h⟩)
  · cases h

/-- An operation issued by the host and admitted starts at its step 1. -/
theorem perform_admitted {i : Instr} {body : Frame → State → Res} {s : State} (h : s.issuer = .host) :
    perform i none body s = body (Frame.start i) s := by
  simp [perform, h]

/-- An operation issued by the host and not admitted is refused. -/
theorem perform_refused {i : Instr} {r : Reason} {body : Frame → State → Res} {s : State}
    (h : s.issuer = .host) : perform i (some r) body s = .next (refuse r s) := by
  simp [perform, h]

/-- The sequencer performs the step of the call's frame. -/
theorem perform_sequencer {i : Instr} {a : Option Reason} {body : Frame → State → Res} {s : State}
    {f : Frame} (h : s.issuer = .sequencer) (hf : s.callFrame = some f) :
    perform i a body s = body f s := by
  simp [perform, h, hf]

/-! ### The primitives that a test program issues -/

@[simp] theorem orWait_none (f : Frame) (s : State) (go : State → State) :
    orWait f s none go = .next (s.storePrim f) := rfl

@[simp] theorem orWait_some (f : Frame) (s s' : State) (go : State → State) :
    orWait f s (some s') go = .next (go s') := rfl

/-- A step of a primitive that may hold answers a next state: the frame stored and nothing else, or what
it goes on to. -/
theorem orWait_cases {f : Frame} {s s' : State} {o : Option State} {go : State → State}
    (h : orWait f s o go = .next s') :
    (o = none ∧ s' = s.storePrim f) ∨ ∃ u, o = some u ∧ s' = go u := by
  cases o with
  | none => exact .inl ⟨rfl, by simpa using h.symm⟩
  | some u => exact .inr ⟨u, rfl, by simpa using h.symm⟩

/-- What is not held for the order is what was there, with no earlier primitive waiting. -/
theorem inOrder_eq_some {s u : State} {o : Option State} (h : s.inOrder o = some u) :
    s.primWaits = false ∧ o = some u := by
  unfold State.inOrder at h
  cases hw : s.primWaits <;> simp_all

theorem inOrder_of_first {s : State} (o : Option State) (h : s.primWaits = false) : s.inOrder o = o := by
  simp [State.inOrder, h]

theorem inOrder_of_waiting {s : State} (o : Option State) (h : s.primWaits = true) : s.inOrder o = none := by
  simp [State.inOrder, h]

/-- A primitive that is performed at once answers its effect. -/
theorem oneStep_cases {eff : State → State} {f : Frame} {s s' : State} (h : oneStep eff f s = .next s') :
    f.k = 1 ∧ s' = (eff s).endPrim := by
  unfold oneStep at h
  split at h
  · exact ⟨‹_›, by simpa using h.symm⟩
  · cases h

/-- A primitive of one step that may hold answers a next state: it held, or it took effect and ended. -/
theorem waitStep_cases {eff : State → Option State} {f : Frame} {s s' : State}
    (h : waitStep eff f s = .next s') :
    f.k = 1 ∧ ((s.inOrder (eff s) = none ∧ s' = s.storePrim f) ∨
      ∃ u, s.primWaits = false ∧ eff s = some u ∧ s' = u.endPrim) := by
  unfold waitStep at h
  split at h
  · obtain hn | ⟨u, hu, rfl⟩ := orWait_cases h
    · exact ⟨‹_›, .inl hn⟩
    · obtain ⟨hw, he⟩ := inOrder_eq_some hu
      exact ⟨‹_›, .inr ⟨u, hw, he, rfl⟩⟩
  · cases h

/-- A primitive that answers a next state was refused on issue, in interrupt context; or started on issue,
in normal context; or was one in flight. -/
theorem performPrimitive_cases {i : Instr} {body : Frame → State → Res} {s s' : State}
    (h : performPrimitive i body s = .next s') :
    (s.issuer = .host ∧ s.ctx = .isr ∧ s' = refuse .wrongIssuer s) ∨
    (s.issuer = .host ∧ s.ctx = .normal ∧ body (Frame.start i) s = .next s') ∨
    (∃ n f, s.issuer = .program n ∧ s.prims[n]? = some f ∧ body f s = .next s') := by
  unfold performPrimitive at h
  split at h
  · unfold admitPrimitive at h
    cases hc : s.ctx <;> simp only [hc, ↓reduceIte, reduceCtorEq] at h
    · exact .inr (.inl ⟨‹_›, rfl, h⟩)
    · exact .inl ⟨‹_›, rfl, by simpa using h.symm⟩
  · split at h
    · cases h
    · exact .inr (.inr ⟨_, _, ‹_›, ‹_›, h⟩)
  · cases h

/-- A primitive issued in normal context starts at its step 1. -/
theorem performPrimitive_admitted {i : Instr} {body : Frame → State → Res} {s : State}
    (h : s.issuer = .host) (hc : s.ctx = .normal) :
    performPrimitive i body s = body (Frame.start i) s := by
  simp [performPrimitive, admitPrimitive, h, hc]

/-- A primitive in flight performs the step at which it stands. -/
theorem performPrimitive_program {i : Instr} {body : Frame → State → Res} {s : State} {n : Nat} {f : Frame}
    (h : s.issuer = .program n) (hf : s.prims[n]? = some f) : performPrimitive i body s = body f s := by
  simp [performPrimitive, h, hf]

/-- A read primitive answers a next state: refused, or the value in `dest` and the primitive ended. -/
theorem performRead_cases {i : Instr} {value : State → Word} {s s' : State}
    (h : performRead i value s = .next s') :
    s' = refuse .wrongIssuer s ∨ s' = ({ s with dest := value s } : State).endPrim := by
  obtain ⟨-, -, rfl⟩ | ⟨-, -, hb⟩ | ⟨_, _, -, -, hb⟩ := performPrimitive_cases h
  · exact .inl rfl
  · exact .inr (oneStep_cases hb).2
  · exact .inr (oneStep_cases hb).2

/-! ### Admission -/

theorem admitPrimitive_normal {s : State} (hc : s.ctx = .normal) : admitPrimitive s = none := by
  simp [admitPrimitive, hc]

theorem admitInit_idle {s : State} (hi : s.inited = false) (hc : s.ctx = .normal)
    (hn : s.seqNormal = none) : admitInit s = none := by
  simp [admitInit, hi, hc, hn]

/-- A call of mode `m` is admitted exactly when the build has that mode, INIT has run, and the running
context takes calls and has none in flight. -/
theorem admitCall_eq_none {m : Mode} {s : State} :
    admitCall m s = none ↔ s.cfg.mode = m ∧ s.inited = true ∧ s.callFrame = none ∧
      (s.ctx = .isr → s.callbackOpen = true) := by
  unfold admitCall
  cases hc : s.ctx <;> cases hf : s.callFrame <;> cases ho : s.callbackOpen <;> cases hi : s.inited <;>
    by_cases hm : s.cfg.mode = m <;> simp [hm]

/-! ### The agents -/

/-- Every turn that answers a next state ends with the latch. -/
theorem settle_eq_next {o : Res} {s' : State} (h : settle o = .next s') :
    ∃ u, o = .next u ∧ s' = latch u := by
  cases o with
  | next u => exact ⟨u, rfl, by simpa [settle] using h.symm⟩
  | fault r => cases h
  | refused r => cases h

@[simp] theorem settle_next (s : State) : settle (.next s) = .next (latch s) := rfl

/-- Everything the synchronisation unit can do. -/
theorem syncUnit_cases (s : State) :
    (s.syncOp = .none ∧ syncUnit s = s) ∨
    (∃ v, s.syncOp = .writeComp v ∧
      syncUnit s = { s with comp := v, syncOp := .none, syncbusy := false }) ∨
    (∃ c, s.syncOp = .writeCtrl c ∧ c.swrst = true ∧ syncUnit s = softwareReset s) ∨
    (∃ c, s.syncOp = .writeCtrl c ∧ c.swrst = false ∧
      syncUnit s = { s with ctrl := c, syncOp := .none, syncbusy := false }) ∨
    (s.syncOp = .readCount ∧
      syncUnit s = { s with countSnap := s.count, syncOp := .none, syncbusy := false }) := by
  unfold syncUnit
  split <;> simp_all
  next c _ => cases h : c.swrst <;> simp

/-- Everything the counter agent can do. -/
theorem counterAgent_cases (s : State) :
    (s.swrstLanded = false ∧ counterAgent s = countUnspecified s) ∨
    (s.swrstLanded = true ∧ s.ctrl.enable = false ∧ counterAgent s = s) ∨
    (s.swrstLanded = true ∧ s.ctrl.enable = true ∧ s.ctrl.matchclr = false ∧
      counterAgent s = countFreeRun s) ∨
    (s.swrstLanded = true ∧ s.ctrl.enable = true ∧ s.ctrl.matchclr = true ∧
      counterAgent s = countMatchClear s) := by
  unfold counterAgent
  cases s.swrstLanded <;> cases s.ctrl.enable <;> cases s.ctrl.matchclr <;> simp

/-- Interrupt entry happens when it is enabled, and otherwise nothing does. -/
theorem interruptEntry_cases (s : State) :
    (s.entryEnabled = true ∧ interruptEntry s = enterInterrupt s) ∨
    (s.entryEnabled = false ∧ interruptEntry s = s) := by
  unfold interruptEntry
  cases s.entryEnabled <;> simp

/-- Entry is enabled in a running machine exactly on the four conditions of 60 R208. -/
theorem entryEnabled_iff (s : State) :
    s.entryEnabled = true ↔ s.irqPend = true ∧ s.irqEn = true ∧ s.irqLocked = false ∧
      s.ctx = .normal ∧ s.refused = false := by
  simp [State.entryEnabled, and_assoc]

/-- The host returns when the callback is open and no call is in flight there, and otherwise nothing
happens. -/
theorem hostReturns_cases (s : State) :
    (s.callbackOpen = true ∧ s.seqCall = none ∧ hostReturns s = { s with seqAnn := none }) ∨
    hostReturns s = s := by
  unfold hostReturns
  split
  · next h => exact .inl ⟨h.1, h.2, rfl⟩
  · exact .inr rfl

/-! ### The step -/

/-- Everything a step can do: it answers a next state only in a machine that is not refused; with an invalid
configuration it is the refusal; otherwise it is the turn taken. -/
theorem step_cases {s s' : State} (h : step s = .next s') :
    s.refused = false ∧
    ((s.cfg.valid = false ∧ s' = refuse .configInvalid s) ∨
      (s.cfg.valid = true ∧ takeTurn (nextTurn s).1 (nextTurn s).2 = .next s')) := by
  unfold step stepTurn at h
  cases hr : s.refused <;> cases hv : s.cfg.valid <;> simp_all

theorem step_running {s : State} (hr : s.refused = false) (hv : s.cfg.valid = true) :
    step s = takeTurn (nextTurn s).1 (nextTurn s).2 := by
  simp [step, stepTurn, hr, hv]

/-- The state in which the next turn is taken differs in the schedule and the free-value counter only. -/
theorem nextTurn_state (s : State) :
    ∃ ts n, (nextTurn s).2 = { s with sched := ts, fresh := n } := by
  unfold nextTurn
  split
  · exact ⟨_, s.fresh, rfl⟩
  · exact ⟨s.sched, _, rfl⟩

/-- Everything a turn can do, before the latch. -/
theorem takeTurn_cases {t : Turn} {s s' : State} (h : takeTurn t s = .next s') :
    ∃ u, s' = latch u ∧
      ((∃ w, t = .issue w ∧ issueWord w s = .next u) ∨ (t = .proc ∧ proceed s = .next u) ∨
        (∃ n, t = .program n ∧ programStep n s = .next u) ∨
        (t = .counter ∧ u = counterAgent s) ∨ (t = .sync ∧ u = syncUnit s) ∨
        (t = .enter ∧ u = interruptEntry s) ∨ (t = .hostReturn ∧ u = hostReturns s)) := by
  cases t <;> unfold takeTurn at h <;> simp only at h <;> obtain ⟨u, hu, rfl⟩ := settle_eq_next h <;>
    refine ⟨u, rfl, ?_⟩ <;> simp_all

/-- An issued word is refused by the decoder or performed as the host's call. -/
theorem issueWord_cases {w : OpWord} {s u : State} (h : issueWord w s = .next u) :
    (∃ e, decode w = .error e ∧ u = refuse (reasonOf e) s) ∨
    (∃ i, decode w = .ok i ∧ exec i { s with issuer := .host } = .next u) := by
  unfold issueWord at h
  split at h
  · exact .inl ⟨_, ‹_›, by simpa using h.symm⟩
  · exact .inr ⟨_, ‹_›, h⟩

/-- A processor turn finds the running context idle, or performs its operation. -/
theorem proceed_cases {s u : State} (h : proceed s = .next u) :
    (s.currentOp = none ∧ u = s) ∨
    (∃ i, s.currentOp = some i ∧ exec i { s with issuer := .sequencer } = .next u) := by
  unfold proceed at h
  split at h
  · exact .inl ⟨‹_›, by simpa using h.symm⟩
  · exact .inr ⟨_, ‹_›, h⟩

/-- A turn of a test program's primitive finds none that may advance, or performs its step. -/
theorem programStep_cases {n : Nat} {s u : State} (h : programStep n s = .next u) :
    (s.programOp n = none ∧ u = s) ∨
    (∃ i, s.programOp n = some i ∧ exec i { s with issuer := .program n } = .next u) := by
  unfold programStep at h
  split at h
  · exact .inl ⟨‹_›, by simpa using h.symm⟩
  · exact .inr ⟨_, ‹_›, h⟩

end Sys2Proof.Machine
end

