-- ==== Sys2Proof/Laws/Step.lean ====
section
/-! SUPPORT. The state in which a turn is taken, and one lemma that says once everything a step can do. -/

namespace Sys2Proof.Machine

/-! ### The state of the turn differs from the machine's in the schedule and the free-value counter only -/

@[simp] theorem nextTurn_cfg (s : State) : (nextTurn s).2.cfg = s.cfg := by
  unfold nextTurn; split <;> rfl

@[simp] theorem nextTurn_count (s : State) : (nextTurn s).2.count = s.count := by
  unfold nextTurn; split <;> rfl

@[simp] theorem nextTurn_comp (s : State) : (nextTurn s).2.comp = s.comp := by
  unfold nextTurn; split <;> rfl

@[simp] theorem nextTurn_ctrl (s : State) : (nextTurn s).2.ctrl = s.ctrl := by
  unfold nextTurn; split <;> rfl

@[simp] theorem nextTurn_inten (s : State) : (nextTurn s).2.inten = s.inten := by
  unfold nextTurn; split <;> rfl

@[simp] theorem nextTurn_intflag (s : State) : (nextTurn s).2.intflag = s.intflag := by
  unfold nextTurn; split <;> rfl

@[simp] theorem nextTurn_syncbusy (s : State) : (nextTurn s).2.syncbusy = s.syncbusy := by
  unfold nextTurn; split <;> rfl

@[simp] theorem nextTurn_syncOp (s : State) : (nextTurn s).2.syncOp = s.syncOp := by
  unfold nextTurn; split <;> rfl

@[simp] theorem nextTurn_countSnap (s : State) : (nextTurn s).2.countSnap = s.countSnap := by
  unfold nextTurn; split <;> rfl

@[simp] theorem nextTurn_swrstLanded (s : State) : (nextTurn s).2.swrstLanded = s.swrstLanded := by
  unfold nextTurn; split <;> rfl

@[simp] theorem nextTurn_irqPend (s : State) : (nextTurn s).2.irqPend = s.irqPend := by
  unfold nextTurn; split <;> rfl

@[simp] theorem nextTurn_irqEn (s : State) : (nextTurn s).2.irqEn = s.irqEn := by
  unfold nextTurn; split <;> rfl

@[simp] theorem nextTurn_irqLocked (s : State) : (nextTurn s).2.irqLocked = s.irqLocked := by
  unfold nextTurn; split <;> rfl

@[simp] theorem nextTurn_ctx (s : State) : (nextTurn s).2.ctx = s.ctx := by
  unfold nextTurn; split <;> rfl

@[simp] theorem nextTurn_lastMark (s : State) : (nextTurn s).2.lastMark = s.lastMark := by
  unfold nextTurn; split <;> rfl

@[simp] theorem nextTurn_tickCount (s : State) : (nextTurn s).2.tickCount = s.tickCount := by
  unfold nextTurn; split <;> rfl

@[simp] theorem nextTurn_target (s : State) : (nextTurn s).2.target = s.target := by
  unfold nextTurn; split <;> rfl

@[simp] theorem nextTurn_inited (s : State) : (nextTurn s).2.inited = s.inited := by
  unfold nextTurn; split <;> rfl

@[simp] theorem nextTurn_refused (s : State) : (nextTurn s).2.refused = s.refused := by
  unfold nextTurn; split <;> rfl

@[simp] theorem nextTurn_log (s : State) : (nextTurn s).2.log = s.log := by
  unfold nextTurn; split <;> rfl

@[simp] theorem nextTurn_seqNormal (s : State) : (nextTurn s).2.seqNormal = s.seqNormal := by
  unfold nextTurn; split <;> rfl

@[simp] theorem nextTurn_seqIsr (s : State) : (nextTurn s).2.seqIsr = s.seqIsr := by
  unfold nextTurn; split <;> rfl

@[simp] theorem nextTurn_seqAnn (s : State) : (nextTurn s).2.seqAnn = s.seqAnn := by
  unfold nextTurn; split <;> rfl

@[simp] theorem nextTurn_seqCall (s : State) : (nextTurn s).2.seqCall = s.seqCall := by
  unfold nextTurn; split <;> rfl

@[simp] theorem nextTurn_prims (s : State) : (nextTurn s).2.prims = s.prims := by
  unfold nextTurn; split <;> rfl

@[simp] theorem nextTurn_dest (s : State) : (nextTurn s).2.dest = s.dest := by
  unfold nextTurn; split <;> rfl

@[simp] theorem nextTurn_issuer (s : State) : (nextTurn s).2.issuer = s.issuer := by
  unfold nextTurn; split <;> rfl

@[simp] theorem nextTurn_currentOp (s : State) : (nextTurn s).2.currentOp = s.currentOp := by
  unfold nextTurn; split <;> rfl

@[simp] theorem nextTurn_programOp (s : State) (n : Nat) : (nextTurn s).2.programOp n = s.programOp n := by
  unfold nextTurn; split <;> rfl

/-- Everything a step can do, with the operation that `State.performed` names: it refuses an invalid
configuration, or takes one turn and latches. -/
theorem step_turns {s s' : State} (h : step s = .next s') :
    s.refused = false ∧
    ((s.cfg.valid = false ∧ s' = refuse .configInvalid s) ∨
     (s.cfg.valid = true ∧ ∃ u, s' = latch u ∧
      ((∃ w e, (nextTurn s).1 = .issue w ∧ decode w = .error e ∧ s.performed = none ∧
          u = refuse (reasonOf e) (nextTurn s).2) ∨
       (∃ w i, (nextTurn s).1 = .issue w ∧ decode w = .ok i ∧ s.performed = some i ∧
          exec i { (nextTurn s).2 with issuer := .host } = .next u) ∨
       (∃ i, (nextTurn s).1 = .proc ∧ s.currentOp = some i ∧ s.performed = some i ∧
          exec i { (nextTurn s).2 with issuer := .sequencer } = .next u) ∨
       ((nextTurn s).1 = .proc ∧ s.currentOp = none ∧ s.performed = none ∧ u = (nextTurn s).2) ∨
       (∃ n i, (nextTurn s).1 = .program n ∧ s.programOp n = some i ∧ s.performed = some i ∧
          exec i { (nextTurn s).2 with issuer := .program n } = .next u) ∨
       (∃ n, (nextTurn s).1 = .program n ∧ s.programOp n = none ∧ s.performed = none ∧
          u = (nextTurn s).2) ∨
       ((nextTurn s).1 = .counter ∧ s.performed = none ∧ u = counterAgent (nextTurn s).2) ∨
       ((nextTurn s).1 = .sync ∧ s.performed = none ∧ u = syncUnit (nextTurn s).2) ∨
       ((nextTurn s).1 = .enter ∧ s.performed = none ∧ u = interruptEntry (nextTurn s).2) ∨
       ((nextTurn s).1 = .hostReturn ∧ s.performed = none ∧ u = hostReturns (nextTurn s).2)))) := by
  obtain ⟨hr, ⟨hv, rfl⟩ | ⟨hv, ht⟩⟩ := step_cases h
  · exact ⟨hr, .inl ⟨hv, rfl⟩⟩
  refine ⟨hr, .inr ⟨hv, ?_⟩⟩
  obtain ⟨u, rfl, ⟨w, e, hw⟩ | ⟨e, hp⟩ | ⟨n, e, hp⟩ | ⟨e, rfl⟩ | ⟨e, rfl⟩ | ⟨e, rfl⟩ |
    ⟨e, rfl⟩⟩ := takeTurn_cases ht
  all_goals refine ⟨_, rfl, ?_⟩
  · obtain ⟨e', he, rfl⟩ | ⟨i, hi, hi'⟩ := issueWord_cases hw
    · exact .inl ⟨w, e', e, he, by simp [State.performed, e, he, Except.toOption], rfl⟩
    · exact .inr (.inl ⟨w, i, e, hi, by simp [State.performed, e, hi, Except.toOption], hi'⟩)
  · obtain ⟨hc, rfl⟩ | ⟨i, hc, hi⟩ := proceed_cases hp
    · exact .inr (.inr (.inr (.inl ⟨e, by simpa using hc, by simpa [State.performed, e] using hc, rfl⟩)))
    · exact .inr (.inr (.inl ⟨i, e, by simpa using hc, by simpa [State.performed, e] using hc, hi⟩))
  · obtain ⟨hc, rfl⟩ | ⟨i, hc, hi⟩ := programStep_cases hp
    · exact .inr (.inr (.inr (.inr (.inr (.inl
        ⟨n, e, by simpa using hc, by simpa [State.performed, e] using hc, rfl⟩)))))
    · exact .inr (.inr (.inr (.inr (.inl
        ⟨n, i, e, by simpa using hc, by simpa [State.performed, e] using hc, hi⟩))))
  all_goals simp [State.performed, e]

end Sys2Proof.Machine
end

