-- ==== Sys2Proof/Laws/Exec.lean ====
section
/-! SUPPORT. What no operation writes when it is performed: the fields that belong to the hardware agents, to
the build and to the schedule. -/

namespace Sys2Proof.Machine

/-- An operation that answers a next state leaves these fields as they were and only appends to LOG. -/
structure ExecKeeps (s s' : State) : Prop where
  cfg : s'.cfg = s.cfg
  count : s'.count = s.count
  comp : s'.comp = s.comp
  ctrl : s'.ctrl = s.ctrl
  countSnap : s'.countSnap = s.countSnap
  swrstLanded : s'.swrstLanded = s.swrstLanded
  issuer : s'.issuer = s.issuer
  sched : s'.sched = s.sched
  fresh : s'.fresh = s.fresh
  log : ∃ es, s'.log = s.log ++ es

/-- The body of an operation keeps those fields. -/
abbrev BodyKeeps (body : Frame → State → Res) : Prop :=
  ∀ f s s', body f s = .next s' → ExecKeeps s s'

theorem ExecKeeps.refuse (r : Reason) (s : State) : ExecKeeps s (refuse r s) :=
  ⟨rfl, rfl, rfl, rfl, rfl, rfl, rfl, rfl, rfl, _, rfl⟩

/-- An operation of the host or of a test program keeps them if its body does. -/
theorem perform_keeps {i : Instr} {a : Option Reason} {body : Frame → State → Res} (hb : BodyKeeps body)
    {s s' : State} (h : perform i a body s = .next s') : ExecKeeps s s' := by
  obtain ⟨r, -, -, rfl⟩ | ⟨-, -, hs⟩ | ⟨f, -, -, hs⟩ := perform_cases h
  · exact .refuse r s
  · exact hb _ _ _ hs
  · exact hb _ _ _ hs

/-- A primitive of a test program keeps them if its body does. -/
theorem performPrimitive_keeps {i : Instr} {body : Frame → State → Res} (hb : BodyKeeps body)
    {s s' : State} (h : performPrimitive i body s = .next s') : ExecKeeps s s' := by
  obtain ⟨-, -, rfl⟩ | ⟨-, -, hs⟩ | ⟨n, f, -, -, hs⟩ := performPrimitive_cases h
  · exact .refuse _ s
  · exact hb _ _ _ hs
  · exact hb _ _ _ hs

/-- What only changes the primitives in flight keeps them. -/
theorem ExecKeeps.prims {s u t : State} (h : ExecKeeps s u) (ht : ∃ l, t = { u with prims := l }) :
    ExecKeeps s t := by
  obtain ⟨l, rfl⟩ := ht
  exact ⟨h.cfg, h.count, h.comp, h.ctrl, h.countSnap, h.swrstLanded, h.issuer, h.sched, h.fresh, h.log⟩

theorem ExecKeeps.refl (s : State) : ExecKeeps s s :=
  ⟨rfl, rfl, rfl, rfl, rfl, rfl, rfl, rfl, rfl, [], by simp⟩

/-- A primitive that is performed at once keeps them if its effect does. -/
theorem oneStep_keeps {eff : State → State} (he : ∀ s, ExecKeeps s (eff s)) : BodyKeeps (oneStep eff) := by
  intro f s s' h
  obtain ⟨-, rfl⟩ := oneStep_cases h
  exact (he s).prims ⟨_, rfl⟩

/-- A primitive that may hold keeps them if its effect does. -/
theorem waitStep_keeps {eff : State → Option State} (he : ∀ s u, eff s = some u → ExecKeeps s u) :
    BodyKeeps (waitStep eff) := by
  intro f s s' h
  obtain ⟨-, ⟨-, rfl⟩ | ⟨u, -, hu, rfl⟩⟩ := waitStep_cases h
  · exact (ExecKeeps.refl s).prims ⟨_, rfl⟩
  · exact (he s u hu).prims ⟨_, rfl⟩

/-! ### The operations, body by body -/

theorem initStep_keeps : BodyKeeps initStep := by
  intro f s s' h
  by_cases hs : s.syncOp = .none <;>
    simp only [initStep, postSync, awaitSync, hs, ↓reduceIte, orHold_none, orHold_some] at h <;>
    (repeat' split at h) <;> cases h <;> constructor <;> simp

theorem queryElapsedTStep_keeps : BodyKeeps queryElapsedTStep := by
  intro f s s' h
  by_cases hs : s.syncOp = .none <;>
    simp only [queryElapsedTStep, postSync, awaitSync, hs, ↓reduceIte, orHold_none, orHold_some] at h <;>
    (repeat' split at h) <;> cases h <;> constructor <;> simp

theorem idleExitTStep_keeps : BodyKeeps idleExitTStep := by
  intro f s s' h
  unfold idleExitTStep at h
  split at h
  · cases h
    constructor <;> simp
  · cases h

theorem queryElapsedPStep_keeps : BodyKeeps queryElapsedPStep := by
  intro f s s' h
  unfold queryElapsedPStep at h
  (repeat' split at h) <;> cases h <;> constructor <;> simp

theorem idleExitPStep_keeps : BodyKeeps idleExitPStep := by
  intro f s s' h
  unfold idleExitPStep at h
  split at h
  · cases h
    constructor <;> simp
  · cases h

theorem setTimeoutTStep_keeps (ticks : Word) : BodyKeeps (setTimeoutTStep ticks) := by
  intro f s s' h
  by_cases hs : s.syncOp = .none <;>
    simp only [setTimeoutTStep, postSync, awaitSync, hs, ↓reduceIte, orHold_none, orHold_some] at h <;>
    (repeat' split at h) <;> cases h <;> constructor <;> simp

theorem setTimeoutPStep_keeps (ticks : Word) : BodyKeeps (setTimeoutPStep ticks) := by
  intro f s s' h
  unfold setTimeoutPStep at h
  (repeat' split at h) <;> cases h <;> constructor <;> simp

theorem postSync_keeps (op : SyncOp) (s u : State) (h : postSync op s = some u) : ExecKeeps s u := by
  obtain ⟨-, rfl⟩ := postSync_eq_some h
  constructor <;> simp

theorem awaitSync_keeps (s u : State) (h : awaitSync s = some u) : ExecKeeps s u := by
  obtain ⟨-, rfl⟩ := awaitSync_eq_some h
  constructor <;> simp

/-- The two steps of RD_COUNT keep them. -/
theorem rdCountStep_keeps : BodyKeeps rdCountStep := by
  intro f s s' h
  unfold rdCountStep at h
  split at h
  · obtain ⟨-, rfl⟩ | ⟨u, hu, rfl⟩ := orWait_cases h
    · exact (ExecKeeps.refl s).prims ⟨_, rfl⟩
    · exact (postSync_keeps _ _ _ (inOrder_eq_some hu).2).prims ⟨_, rfl⟩
  · obtain ⟨-, rfl⟩ | ⟨u, hu, rfl⟩ := orWait_cases h
    · exact (ExecKeeps.refl s).prims ⟨_, rfl⟩
    · obtain ⟨-, rfl⟩ := awaitSync_eq_some hu
      constructor <;> simp
  · cases h

theorem wrCtrlStep_keeps (c : Ctrl) : BodyKeeps (wrCtrlStep c) := by
  intro f s s' h
  unfold wrCtrlStep at h
  split at h
  · exact waitStep_keeps (postSync_keeps _) _ _ _ h
  · cases h
    exact .refuse _ _

theorem irqUnlockStep_keeps (key : Word) : BodyKeeps (irqUnlockStep key) := by
  intro f s s' h
  unfold irqUnlockStep at h
  split at h
  · refine oneStep_keeps (fun s => ?_) _ _ _ h
    constructor <;> simp
  · cases h
    exact .refuse _ _

theorem callAnnounce_keeps {n : Word} {f : Frame} {s s' : State} (h : callAnnounce n f s = .next s') :
    ExecKeeps s s' := by
  unfold callAnnounce execAnnounce at h
  split at h
  · cases h
    constructor <;> simp [refuse]
  · simp only [Frame.start] at h
    cases h
    constructor <;> simp
  · cases h

theorem execIret_keeps {s s' : State} (h : execIret s = .next s') : ExecKeeps s s' := by
  unfold execIret at h
  split at h <;> cases h
  · exact .refuse _ _
  · exact .refuse _ _
  · constructor <;> simp

theorem isrTStep_keeps : BodyKeeps isrTStep := by
  intro f s s' h
  by_cases hs : s.syncOp = .none <;>
    simp only [isrTStep, postSync, awaitSync, hs, ↓reduceIte] at h <;> (repeat' split at h) <;>
    first
    | exact callAnnounce_keeps h
    | exact execIret_keeps h
    | (cases h; constructor <;> simp)
    | cases h

theorem isrPStep_keeps : BodyKeeps isrPStep := by
  intro f s s' h
  unfold isrPStep at h
  split at h
  all_goals first
    | exact callAnnounce_keeps h
    | exact execIret_keeps h
    | (cases h; constructor <;> simp)
    | cases h

/-- Every operation, whoever performs it, keeps the hardware agents' registers, the build, the schedule and
the events already logged. -/
theorem exec_keeps {i : Instr} {s s' : State} (h : exec i s = .next s') : ExecKeeps s s' := by
  cases i with
  | init => exact perform_keeps initStep_keeps h
  | setTimeoutT w _ => exact perform_keeps (setTimeoutTStep_keeps w) h
  | setTimeoutP w _ => exact perform_keeps (setTimeoutPStep_keeps w) h
  | queryElapsedT => exact perform_keeps queryElapsedTStep_keeps h
  | queryElapsedP => exact perform_keeps queryElapsedPStep_keeps h
  | idleExitT => exact perform_keeps idleExitTStep_keeps h
  | idleExitP => exact perform_keeps idleExitPStep_keeps h
  | isrT =>
    simp only [exec, execIsrT] at h
    split at h
    · cases h
      exact .refuse _ _
    · split at h
      · cases h
      · exact isrTStep_keeps _ _ _ h
    · cases h
  | isrP =>
    simp only [exec, execIsrP] at h
    split at h
    · cases h
      exact .refuse _ _
    · split at h
      · cases h
      · exact isrPStep_keeps _ _ _ h
    · cases h
  | announce n =>
    simp only [exec, execAnnounce] at h
    split at h
    · cases h
      exact .refuse _ _
    · (repeat' split at h) <;> first | (cases h; constructor <;> simp) | cases h
    · cases h
  | iret => exact execIret_keeps h
  | rdCount => exact performPrimitive_keeps rdCountStep_keeps h
  | wrCtrl c => exact performPrimitive_keeps (wrCtrlStep_keeps c) h
  | irqUnlock key => exact performPrimitive_keeps (irqUnlockStep_keeps key) h
  | wrComp v => exact performPrimitive_keeps (waitStep_keeps (postSync_keeps _)) h
  | waitSync => exact performPrimitive_keeps (waitStep_keeps awaitSync_keeps) h
  | _ =>
    refine performPrimitive_keeps (oneStep_keeps (fun s => ?_)) h
    constructor <;> simp

end Sys2Proof.Machine
end

