-- ==== Sys2Proof/Laws/PerInstr.lean ====
section
/-! SUPPORT. Facts about every operation as syntax, one lemma for each constructor. -/

namespace Sys2Proof.Laws

/-- The word of an operation has 0 in its reserved bits (30 R86), an assigned operation code (30 R90) and a
variable selector other than 3 (30 R84). -/
def EncodeShape.Statement (i : Instr) : Prop :=
  (encode i).rsv = 0 ∧ (lookup (encode i).opc).isSome = true ∧ (encode i).v ≠ 3

/-- Every assembled word with an assigned code and a selector other than 3 has that shape. -/
theorem assemble_shape {opc : BitVec 8} {b : Bool} {v : BitVec 2} {imm : Word}
    (ho : (lookup opc).isSome = true) (hv : v ≠ 3) :
    (assemble opc b v imm).rsv = 0 ∧ (lookup (assemble opc b v imm).opc).isSome = true ∧
      (assemble opc b v imm).v ≠ 3 := by
  simpa using ⟨ho, hv⟩

theorem var_toBits_ne (var : Var) : var.toBits ≠ 3 := by
  cases var <;> decide

theorem EncodeShape.init : EncodeShape.Statement .init :=
  assemble_shape rfl (by decide)

theorem EncodeShape.setTimeoutT (ticks : Word) (isIdle : Bool) : EncodeShape.Statement (.setTimeoutT ticks isIdle) :=
  assemble_shape rfl (by decide)

theorem EncodeShape.setTimeoutP (ticks : Word) (isIdle : Bool) : EncodeShape.Statement (.setTimeoutP ticks isIdle) :=
  assemble_shape rfl (by decide)

theorem EncodeShape.queryElapsedT : EncodeShape.Statement .queryElapsedT :=
  assemble_shape rfl (by decide)

theorem EncodeShape.queryElapsedP : EncodeShape.Statement .queryElapsedP :=
  assemble_shape rfl (by decide)

theorem EncodeShape.idleExitT : EncodeShape.Statement .idleExitT :=
  assemble_shape rfl (by decide)

theorem EncodeShape.idleExitP : EncodeShape.Statement .idleExitP :=
  assemble_shape rfl (by decide)

theorem EncodeShape.isrT : EncodeShape.Statement .isrT :=
  assemble_shape rfl (by decide)

theorem EncodeShape.isrP : EncodeShape.Statement .isrP :=
  assemble_shape rfl (by decide)

theorem EncodeShape.announce (n : Word) : EncodeShape.Statement (.announce n) :=
  assemble_shape rfl (by decide)

theorem EncodeShape.iret : EncodeShape.Statement .iret :=
  assemble_shape rfl (by decide)

theorem EncodeShape.rdCount : EncodeShape.Statement .rdCount :=
  assemble_shape rfl (by decide)

theorem EncodeShape.wrComp (value : Word) : EncodeShape.Statement (.wrComp value) :=
  assemble_shape rfl (by decide)

theorem EncodeShape.rdComp : EncodeShape.Statement .rdComp :=
  assemble_shape rfl (by decide)

theorem EncodeShape.waitSync : EncodeShape.Statement .waitSync :=
  assemble_shape rfl (by decide)

theorem EncodeShape.rdSyncbusy : EncodeShape.Statement .rdSyncbusy :=
  assemble_shape rfl (by decide)

theorem EncodeShape.rdIntflag : EncodeShape.Statement .rdIntflag :=
  assemble_shape rfl (by decide)

theorem EncodeShape.wrIntflag (flags : Flags) : EncodeShape.Statement (.wrIntflag flags) :=
  assemble_shape rfl (by decide)

theorem EncodeShape.wrIntenset (flags : Flags) : EncodeShape.Statement (.wrIntenset flags) :=
  assemble_shape rfl (by decide)

theorem EncodeShape.wrIntenclr (flags : Flags) : EncodeShape.Statement (.wrIntenclr flags) :=
  assemble_shape rfl (by decide)

theorem EncodeShape.rdInten : EncodeShape.Statement .rdInten :=
  assemble_shape rfl (by decide)

theorem EncodeShape.wrCtrl (value : Ctrl) : EncodeShape.Statement (.wrCtrl value) :=
  assemble_shape rfl (by decide)

theorem EncodeShape.rdCtrl : EncodeShape.Statement .rdCtrl :=
  assemble_shape rfl (by decide)

theorem EncodeShape.nvicSetpend : EncodeShape.Statement .nvicSetpend :=
  assemble_shape rfl (by decide)

theorem EncodeShape.nvicClrpend : EncodeShape.Statement .nvicClrpend :=
  assemble_shape rfl (by decide)

theorem EncodeShape.nvicEnable : EncodeShape.Statement .nvicEnable :=
  assemble_shape rfl (by decide)

theorem EncodeShape.nvicDisable : EncodeShape.Statement .nvicDisable :=
  assemble_shape rfl (by decide)

theorem EncodeShape.irqLock : EncodeShape.Statement .irqLock :=
  assemble_shape rfl (by decide)

theorem EncodeShape.irqUnlock (key : Word) : EncodeShape.Statement (.irqUnlock key) :=
  assemble_shape rfl (by decide)

theorem EncodeShape.ldVar (var : Var) : EncodeShape.Statement (.ldVar var) :=
  assemble_shape rfl (var_toBits_ne var)

theorem EncodeShape.stVar (var : Var) (value : Word) : EncodeShape.Statement (.stVar var value) :=
  assemble_shape rfl (var_toBits_ne var)

end Sys2Proof.Laws
end

