-- ==== Sys2Proof/Laws/Runs.lean ====
section
/-! SUPPORT. What a turn of an infinite run can do, the counting of counter steps, and the slot's operation
along a run. -/

namespace Sys2Proof.Machine

/-! ### Counting steps -/

@[simp] theorem counterSteps_self (τ : Nat → Turn) (σ : Nat → State) (a : Nat) : counterSteps τ σ a a = 0 := by
  simp [counterSteps]

/-- One more turn adds its counter step, if it is one. -/
theorem counterSteps_succ {τ : Nat → Turn} {σ : Nat → State} {a b : Nat} (h : a ≤ b) :
    counterSteps τ σ a (b + 1) = counterSteps τ σ a b + if counterStep τ σ b then 1 else 0 := by
  unfold counterSteps
  rw [show b + 1 - a = (b - a) + 1 by omega, List.range'_concat]
  simp [show a + (b - a) = b by omega, List.countP_append, List.countP_singleton]

theorem counterSteps_mono {τ : Nat → Turn} {σ : Nat → State} {a b c : Nat} (hb : b ≤ c) :
    counterSteps τ σ a b ≤ counterSteps τ σ a c := by
  obtain hab | hab := Nat.lt_or_ge b a
  · simp [counterSteps, show b - a = 0 by omega]
  induction c, hb using Nat.le_induction with
  | base => exact Nat.le_refl _
  | succ c hc ih => rw [counterSteps_succ (by omega)]; omega

/-- One more turn adds its period end, if it is one. -/
theorem periodEnds_succ (τ : Nat → Turn) (σ : Nat → State) (n : Nat) :
    periodEnds τ σ (n + 1) = periodEnds τ σ n + if periodEnd τ σ n then 1 else 0 := by
  simp [periodEnds, List.range_succ, List.countP_append, List.countP_singleton]

@[simp] theorem periodEnds_zero (τ : Nat → Turn) (σ : Nat → State) : periodEnds τ σ 0 = 0 := rfl

/-! ### The turns of a run -/

/-- Every state of a run is running, and the next one is what its turn answers. -/
theorem run_turn {τ : Nat → Turn} {σ : Nat → State} (h : RunAlong τ σ) (n : Nat) :
    (σ n).Running ∧ takeTurn (τ n) (σ n) = .next (σ (n + 1)) := by
  obtain ⟨hr, ⟨-, hs⟩ | ⟨hv, ht⟩⟩ := step_cases (h n)
  · have hn := (step_cases (h (n + 1))).1
    rw [show (σ (n + 1)).refused = true by rw [hs]; rfl] at hn
    cases hn
  · exact ⟨⟨hr, hv⟩, by simpa [nextTurn] using ht⟩

/-- Everything a turn of a run can do, before the latch, with the operation that it performs. -/
theorem run_cases {τ : Nat → Turn} {σ : Nat → State} (h : RunAlong τ σ) (n : Nat) :
    ∃ u, σ (n + 1) = latch u ∧
      ((∃ i x, performedAt τ σ n = some i ∧ exec i { σ n with issuer := x } = .next u ∧
          ((x = .host ∧ ∃ w, τ n = .issue w) ∨ (x = .sequencer ∧ τ n = .proc ∧ (σ n).currentOp = some i) ∨
            ∃ k, x = .program k ∧ τ n = .program k ∧ (σ n).programOp k = some i)) ∨
       (performedAt τ σ n = none ∧ u = σ n ∧
          ((τ n = .proc ∧ (σ n).currentOp = none) ∨ ∃ k, τ n = .program k ∧ (σ n).programOp k = none)) ∨
       (τ n = .counter ∧ u = counterAgent (σ n)) ∨ (τ n = .sync ∧ u = syncUnit (σ n)) ∨
       (τ n = .enter ∧ u = interruptEntry (σ n)) ∨ (τ n = .hostReturn ∧ u = hostReturns (σ n))) := by
  obtain ⟨-, ⟨-, hs⟩ | ⟨-, u, hu, hc⟩⟩ := step_turns (h n)
  · have hn := (run_turn h (n + 1)).1.1
    rw [show (σ (n + 1)).refused = true by rw [hs]; rfl] at hn
    cases hn
  refine ⟨u, hu, ?_⟩
  obtain ⟨w, e, ht, -, -, hq⟩ | ⟨w, i, ht, -, hp, hi⟩ | ⟨i, ht, hc, hp, hi⟩ | ⟨ht, hc, hp, rfl⟩ |
    ⟨k, i, ht, hc, hp, hi⟩ | ⟨k, ht, hc, hp, rfl⟩ | ⟨ht, -, rfl⟩ | ⟨ht, -, rfl⟩ | ⟨ht, -, rfl⟩ |
    ⟨ht, -, rfl⟩ := hc
  · have hn := (run_turn h (n + 1)).1.1
    rw [show (σ (n + 1)).refused = true by rw [hu, hq]; rfl] at hn
    cases hn
  · exact .inl ⟨i, .host, hp, hi, .inl ⟨rfl, w, ht⟩⟩
  · exact .inl ⟨i, .sequencer, hp, hi, .inr (.inl ⟨rfl, ht, hc⟩)⟩
  · exact .inr (.inl ⟨hp, rfl, .inl ⟨ht, hc⟩⟩)
  · exact .inl ⟨i, .program k, hp, hi, .inr (.inr ⟨k, rfl, ht, hc⟩)⟩
  · exact .inr (.inl ⟨hp, rfl, .inr ⟨k, ht, hc⟩⟩)
  · exact .inr (.inr (.inl ⟨ht, rfl⟩))
  · exact .inr (.inr (.inr (.inl ⟨ht, rfl⟩)))
  · exact .inr (.inr (.inr (.inr (.inl ⟨ht, rfl⟩))))
  · exact .inr (.inr (.inr (.inr (.inr ⟨ht, rfl⟩))))

theorem run_counter {τ : Nat → Turn} {σ : Nat → State} (h : RunAlong τ σ) {n : Nat} (ht : τ n = .counter) :
    σ (n + 1) = latch (counterAgent (σ n)) := by
  have hn := (run_turn h n).2
  rw [ht] at hn
  simpa [takeTurn] using hn.symm

theorem run_sync {τ : Nat → Turn} {σ : Nat → State} (h : RunAlong τ σ) {n : Nat} (ht : τ n = .sync) :
    σ (n + 1) = latch (syncUnit (σ n)) := by
  have hn := (run_turn h n).2
  rw [ht] at hn
  simpa [takeTurn] using hn.symm

/-! ### COUNT, COMP and CTRL along a run -/

/-- A turn that is neither the counter's nor the synchronisation unit's leaves the registers that those two
write as they were. -/
theorem run_frame {τ : Nat → Turn} {σ : Nat → State} (h : RunAlong τ σ) {n : Nat} (hc : τ n ≠ .counter)
    (hs : τ n ≠ .sync) :
    (σ (n + 1)).count = (σ n).count ∧ (σ (n + 1)).comp = (σ n).comp ∧ (σ (n + 1)).ctrl = (σ n).ctrl ∧
      (σ (n + 1)).countSnap = (σ n).countSnap ∧ (σ (n + 1)).swrstLanded = (σ n).swrstLanded := by
  obtain ⟨u, hu, ⟨i, x, -, hi, -⟩ | ⟨-, rfl, -⟩ | ⟨ht, -⟩ | ⟨ht, -⟩ | ⟨-, rfl⟩ | ⟨-, rfl⟩⟩ := run_cases h n
  · have hk := exec_keeps hi
    rw [hu]
    exact ⟨hk.count, hk.comp, hk.ctrl, hk.countSnap, hk.swrstLanded⟩
  · rw [hu]
    exact ⟨rfl, rfl, rfl, rfl, rfl⟩
  · exact absurd ht hc
  · exact absurd ht hs
  · rw [hu]
    obtain ⟨-, e⟩ | ⟨-, e⟩ := interruptEntry_cases (σ n) <;> rw [e] <;> exact ⟨rfl, rfl, rfl, rfl, rfl⟩
  · rw [hu]
    obtain ⟨-, -, e⟩ | e := hostReturns_cases (σ n) <;> rw [e] <;> exact ⟨rfl, rfl, rfl, rfl, rfl⟩

/-- With the counter running free before and after a turn, COUNT moves by that turn's counter step. -/
theorem run_count {τ : Nat → Turn} {σ : Nat → State} (h : RunAlong τ σ) {n : Nat}
    (hl : (σ n).swrstLanded = true) (hm : (σ n).ctrl.matchclr = false)
    (he : (σ (n + 1)).ctrl.enable = true) :
    (σ (n + 1)).count = (σ n).count + if counterStep τ σ n then 1 else 0 := by
  by_cases hc : τ n = .counter
  · rw [run_counter h hc]
    obtain ⟨hf, -⟩ | ⟨-, hd, e⟩ | ⟨-, hd, -, e⟩ | ⟨-, -, hx, -⟩ := counterAgent_cases (σ n)
    · simp [hl] at hf
    · simp [e, counterStep, hd]
    · simp [e, counterStep, hc, hd, countFreeRun]
    · simp [hm] at hx
  · have hstep : counterStep τ σ n = false := by simp [counterStep, hc]
    by_cases hs : τ n = .sync
    · rw [run_sync h hs] at he ⊢
      obtain ⟨-, e⟩ | ⟨_, -, e⟩ | ⟨_, -, -, e⟩ | ⟨_, -, -, e⟩ | ⟨-, e⟩ := syncUnit_cases (σ n)
      all_goals simp only [e] at he ⊢
      all_goals simp [hstep]
      simp [softwareReset, resetCtrl] at he
    · simp [(run_frame h hc hs).1, hstep]

/-- With the counter running free throughout, COUNT moves by the counter steps of the turns. -/
theorem run_count_steps {τ : Nat → Turn} {σ : Nat → State} (h : RunAlong τ σ) {a b : Nat} (hab : a ≤ b)
    (hk : ∀ k, a ≤ k → k ≤ b →
      (σ k).swrstLanded = true ∧ (σ k).ctrl.enable = true ∧ (σ k).ctrl.matchclr = false) :
    (σ b).count = (σ a).count + BitVec.ofNat 32 (counterSteps τ σ a b) := by
  induction b, hab using Nat.le_induction with
  | base => simp
  | succ b hb ih =>
    have hn := hk b hb (by omega)
    rw [run_count h hn.1 hn.2.2 (hk (b + 1) (by omega) (Nat.le_refl _)).2.1,
      ih (fun k h1 h2 => hk k h1 (by omega)), counterSteps_succ hb]
    split <;> simp [BitVec.ofNat_add, BitVec.add_assoc]

/-! ### The slot along a run -/

/-- A body that is performed while the slot is occupied leaves the slot's operation there. -/
abbrev SlotKept (body : Frame → State → Res) : Prop :=
  ∀ f s s', s.syncOp ≠ .none → body f s = .next s' → s'.syncOp = s.syncOp

theorem perform_slotKept {i : Instr} {a : Option Reason} {body : Frame → State → Res} (hb : SlotKept body)
    {s s' : State} (hs : s.syncOp ≠ .none) (h : perform i a body s = .next s') : s'.syncOp = s.syncOp := by
  obtain ⟨r, -, -, rfl⟩ | ⟨-, -, hx⟩ | ⟨f, -, -, hx⟩ := perform_cases h
  · rfl
  · exact hb _ _ _ hs hx
  · exact hb _ _ _ hs hx

theorem performPrimitive_slotKept {i : Instr} {body : Frame → State → Res} (hb : SlotKept body)
    {s s' : State} (hs : s.syncOp ≠ .none) (h : performPrimitive i body s = .next s') :
    s'.syncOp = s.syncOp := by
  obtain ⟨-, -, rfl⟩ | ⟨-, -, hx⟩ | ⟨_, f, -, -, hx⟩ := performPrimitive_cases h
  · rfl
  · exact hb _ _ _ hs hx
  · exact hb _ _ _ hs hx

theorem oneStep_slotKept {eff : State → State} (he : ∀ s, (eff s).syncOp = s.syncOp) :
    SlotKept (oneStep eff) := by
  intro f s s' _ h
  obtain ⟨-, rfl⟩ := oneStep_cases h
  simp [he]

theorem waitStep_slotKept {eff : State → Option State} (he : ∀ s u, eff s = some u → s.syncOp = .none) :
    SlotKept (waitStep eff) := by
  intro f s s' hs h
  obtain ⟨-, ⟨-, rfl⟩ | ⟨u, -, hu, -⟩⟩ := waitStep_cases h
  · rfl
  · exact absurd (he s u hu) hs

theorem rdCountStep_slotKept : SlotKept rdCountStep := by
  intro f s s' hs h
  unfold rdCountStep at h
  split at h
  · obtain ⟨-, rfl⟩ | ⟨u, hu, -⟩ := orWait_cases h
    · rfl
    · exact absurd (postSync_eq_some (inOrder_eq_some hu).2).1 hs
  · obtain ⟨-, rfl⟩ | ⟨u, hu, -⟩ := orWait_cases h
    · rfl
    · exact absurd (awaitSync_eq_some hu).1 hs
  · cases h

theorem callAnnounce_syncOp {n : Word} {f : Frame} {s s' : State} (h : callAnnounce n f s = .next s') :
    s'.syncOp = s.syncOp := by
  unfold callAnnounce execAnnounce at h
  split at h
  · cases h
    rfl
  · simp only [Frame.start] at h
    cases h
    rfl
  · cases h

theorem execIret_syncOp {s s' : State} (h : execIret s = .next s') : s'.syncOp = s.syncOp := by
  unfold execIret at h
  split at h <;> cases h <;> rfl

/-- The bodies of the composite operations: at the steps that access the slot they hold. -/
theorem composite_slotKept : SlotKept initStep ∧ SlotKept queryElapsedTStep ∧ SlotKept idleExitTStep ∧
    (∀ ticks, SlotKept (setTimeoutTStep ticks)) ∧ (∀ ticks, SlotKept (setTimeoutPStep ticks)) ∧
    SlotKept queryElapsedPStep ∧ SlotKept idleExitPStep ∧ SlotKept isrTStep ∧ SlotKept isrPStep := by
  refine ⟨?_, ?_, ?_, fun ticks => ?_, fun ticks => ?_, ?_, ?_, ?_, ?_⟩
  all_goals
    intro f s s' hs h
    simp only [initStep, queryElapsedTStep, idleExitTStep, setTimeoutTStep, setTimeoutPStep,
      queryElapsedPStep, idleExitPStep, isrTStep, isrPStep, postSync, awaitSync, hs, ↓reduceIte,
      orHold_none] at h
    (repeat' split at h) <;> first
      | exact callAnnounce_syncOp h
      | exact execIret_syncOp h
      | (cases h; rfl)
      | cases h

/-- An operation performed while the slot is occupied leaves the slot's operation there (20 R70). -/
theorem exec_slot {i : Instr} {s s' : State} (hs : s.syncOp ≠ .none) (h : exec i s = .next s') :
    s'.syncOp = s.syncOp := by
  obtain ⟨hi, hqt, hit, hst, hsp, hqp, hip, hht, hhp⟩ := composite_slotKept
  cases i with
  | init => exact perform_slotKept hi hs h
  | setTimeoutT w _ => exact perform_slotKept (hst w) hs h
  | setTimeoutP w _ => exact perform_slotKept (hsp w) hs h
  | queryElapsedT => exact perform_slotKept hqt hs h
  | queryElapsedP => exact perform_slotKept hqp hs h
  | idleExitT => exact perform_slotKept hit hs h
  | idleExitP => exact perform_slotKept hip hs h
  | isrT =>
    simp only [exec, execIsrT] at h
    (repeat' split at h) <;> first | exact hht _ _ _ hs h | (cases h; rfl) | cases h
  | isrP =>
    simp only [exec, execIsrP] at h
    (repeat' split at h) <;> first | exact hhp _ _ _ hs h | (cases h; rfl) | cases h
  | announce n =>
    simp only [exec, execAnnounce] at h
    (repeat' split at h) <;> first | (cases h; rfl) | cases h
  | iret => exact execIret_syncOp h
  | rdCount => exact performPrimitive_slotKept rdCountStep_slotKept hs h
  | wrCtrl c =>
    refine performPrimitive_slotKept (fun f s s' hs h => ?_) hs h
    unfold wrCtrlStep at h
    split at h
    · exact waitStep_slotKept (fun _ _ hu => (postSync_eq_some hu).1) _ _ _ hs h
    · cases h
      rfl
  | irqUnlock key =>
    refine performPrimitive_slotKept (fun f s s' hs h => ?_) hs h
    unfold irqUnlockStep at h
    split at h
    · exact oneStep_slotKept (eff := unlockWith key) (fun _ => rfl) _ _ _ hs h
    · cases h
      rfl
  | wrComp v =>
    exact performPrimitive_slotKept (waitStep_slotKept fun _ _ hu => (postSync_eq_some hu).1) hs h
  | waitSync =>
    exact performPrimitive_slotKept (waitStep_slotKept fun _ _ hu => (awaitSync_eq_some hu).1) hs h
  | _ => exact performPrimitive_slotKept (oneStep_slotKept fun _ => by simp) hs h

/-- What occupies the slot stays there until a turn of the synchronisation unit. -/
theorem run_slot {τ : Nat → Turn} {σ : Nat → State} (h : RunAlong τ σ) {n : Nat}
    (hs : (σ n).syncOp ≠ .none) (ht : τ n ≠ .sync) : (σ (n + 1)).syncOp = (σ n).syncOp := by
  obtain ⟨u, hu, ⟨i, x, -, hi, -⟩ | ⟨-, rfl, -⟩ | ⟨-, rfl⟩ | ⟨hc, -⟩ | ⟨-, rfl⟩ | ⟨-, rfl⟩⟩ :=
    run_cases h n
  · rw [hu]
    have hx := exec_slot (s := { σ n with issuer := x }) hs hi
    exact hx
  · rw [hu]
    rfl
  · rw [hu]
    obtain ⟨-, e⟩ | ⟨-, -, e⟩ | ⟨-, -, -, e⟩ | ⟨-, -, -, e⟩ := counterAgent_cases (σ n) <;> rw [e] <;> rfl
  · exact absurd hc ht
  · rw [hu]
    obtain ⟨-, e⟩ | ⟨-, e⟩ := interruptEntry_cases (σ n) <;> rw [e] <;> rfl
  · rw [hu]
    obtain ⟨-, -, e⟩ | e := hostReturns_cases (σ n) <;> rw [e] <;> rfl

/-- What occupies the slot after the turn `a` is there still at the first turn `e` of the synchronisation
unit. -/
theorem run_slot_until {τ : Nat → Turn} {σ : Nat → State} (h : RunAlong τ σ) {a e : Nat} (hae : a ≤ e)
    (hs : (σ a).syncOp ≠ .none) (ht : ∀ m, a ≤ m → m < e → τ m ≠ .sync) :
    (σ e).syncOp = (σ a).syncOp := by
  induction e, hae using Nat.le_induction with
  | base => rfl
  | succ e he ih =>
    have hi := ih fun m h1 h2 => ht m h1 (by omega)
    rw [run_slot h (by rw [hi]; exact hs) (ht e he (by omega)), hi]

end Sys2Proof.Machine
end

