-- ==== Sys2Proof/Machine/Assembly.lean ====
section
/-! DEFINITION. The assembler's spelling of an operation (30 R96) and the pseudo-operations (30 R97). -/

namespace Sys2Proof

/-- The pseudo-operation `SET_TIMEOUT.T FOREVER, b`: ticks is −1 (30 R97). -/
def foreverT (isIdle : Bool) : Instr :=
  .setTimeoutT 0xFFFFFFFF isIdle

/-- The pseudo-operation `SET_TIMEOUT.P FOREVER, b`: ticks is −1 (30 R97). -/
def foreverP (isIdle : Bool) : Instr :=
  .setTimeoutP 0xFFFFFFFF isIdle

/-- The pseudo-operation FORCE_IRQ (30 R97). -/
def forceIrq : Instr :=
  .nvicSetpend

/-- The pseudo-operation CRIT_BEGIN (30 R97). -/
def critBegin : Instr :=
  .irqLock

/-- The pseudo-operation `CRIT_END key` (30 R97). -/
def critEnd (key : Word) : Instr :=
  .irqUnlock key

/-- An unsigned operand, in decimal (30 R96). -/
def Word.asm (v : Word) : String :=
  toString v.toNat

/-- SET_TIMEOUT's operands: ticks as an `s32`, then `is_idle` (30 R96). -/
def timeoutAsm (ticks : Word) (isIdle : Bool) : String :=
  toString ticks.toInt ++ ", " ++ (if isIdle then "1" else "0")

/-- A variable's name (30 R96). -/
def Var.asm : Var → String
  | .lastMark => "LAST_MARK"
  | .tickCount => "TICK_COUNT"
  | .target => "TARGET"

/-- The text of an operation: its mnemonic, and its operands in the order of 30 R96. Flag sets and control
values are written as the numbers of 30 R87 and R88. -/
def Instr.asm : Instr → String
  | .init => "INIT"
  | .setTimeoutT ticks isIdle => "SET_TIMEOUT.T " ++ timeoutAsm ticks isIdle
  | .setTimeoutP ticks isIdle => "SET_TIMEOUT.P " ++ timeoutAsm ticks isIdle
  | .queryElapsedT => "QUERY_ELAPSED.T"
  | .queryElapsedP => "QUERY_ELAPSED.P"
  | .idleExitT => "IDLE_EXIT.T"
  | .idleExitP => "IDLE_EXIT.P"
  | .isrT => "ISR.T"
  | .isrP => "ISR.P"
  | .announce n => "ANNOUNCE " ++ Word.asm n
  | .iret => "IRET"
  | .rdCount => "RD_COUNT"
  | .wrComp value => "WR_COMP " ++ Word.asm value
  | .rdComp => "RD_COMP"
  | .waitSync => "WAIT_SYNC"
  | .rdSyncbusy => "RD_SYNCBUSY"
  | .rdIntflag => "RD_INTFLAG"
  | .wrIntflag flags => "WR_INTFLAG " ++ Word.asm flags.toWord
  | .wrIntenset flags => "WR_INTENSET " ++ Word.asm flags.toWord
  | .wrIntenclr flags => "WR_INTENCLR " ++ Word.asm flags.toWord
  | .rdInten => "RD_INTEN"
  | .wrCtrl value => "WR_CTRL " ++ Word.asm value.toWord
  | .rdCtrl => "RD_CTRL"
  | .nvicSetpend => "NVIC_SETPEND"
  | .nvicClrpend => "NVIC_CLRPEND"
  | .nvicEnable => "NVIC_ENABLE"
  | .nvicDisable => "NVIC_DISABLE"
  | .irqLock => "IRQ_LOCK"
  | .irqUnlock key => "IRQ_UNLOCK " ++ Word.asm key
  | .ldVar var => "LD_VAR " ++ var.asm
  | .stVar var value => "ST_VAR " ++ var.asm ++ ", " ++ Word.asm value

end Sys2Proof
end

