-- ==== Sys2Proof/Tests/Slice0.lean ====
section
/-! SUPPORT. Tests on fixed values, expected results taken from the vectors of 95, and for every statement a
state that meets its hypotheses. -/

namespace Sys2Proof.Tests

open Sys2Proof Sys2Proof.Machine

/-! ### Well-formedness: an ill-formed term for each check -/

theorem test_wf_ctrl_mode : (Instr.wrCtrl ⟨false, true, .code01, false, 0⟩).wf = false := by decide
theorem test_wf_ctrl_prescaler : (Instr.wrCtrl ⟨false, true, .count32, false, 1⟩).wf = false := by decide
theorem test_wf_key : (Instr.irqUnlock 2).wf = false := by decide
theorem test_wf_accepts :
    (Instr.wrCtrl ⟨true, true, .count32, true, 0⟩).wf = true ∧ (Instr.irqUnlock 1).wf = true := by decide

/-! ### Decoding: the vectors of 95 section 2.1 -/

theorem test_decode_calls :
    decode 0x0000000000000001 = .ok .init ∧
    decode 0x0000000500000002 = .ok (.setTimeoutT 5 false) ∧
    decode 0x8000000000000002 = .ok (.setTimeoutT 0x80000000 false) ∧
    decode 0xFFFFFFFE00000182 = .ok (.setTimeoutP 0xFFFFFFFE true) ∧
    decode 0x0000000000000003 = .ok .queryElapsedT ∧ decode 0x0000000000000083 = .ok .queryElapsedP ∧
    decode 0x0000000000000004 = .ok .idleExitT ∧ decode 0x0000000000000084 = .ok .idleExitP := by decide

theorem test_decode_handler :
    decode 0x0000000000000005 = .ok .isrT ∧ decode 0x0000000000000085 = .ok .isrP ∧
    decode 0x0000000500000006 = .ok (.announce 5) ∧ decode 0x0000000000000007 = .ok .iret := by decide

theorem test_decode_peripheral :
    decode 0x0000000000000040 = .ok .rdCount ∧ decode 0x0000003200000041 = .ok (.wrComp 50) ∧
    decode 0x0000000000000042 = .ok .rdComp ∧ decode 0x0000000000000043 = .ok .waitSync ∧
    decode 0x0000000000000044 = .ok .rdSyncbusy ∧ decode 0x0000000000000045 = .ok .rdIntflag ∧
    decode 0x0000008100000046 = .ok (.wrIntflag ⟨true, true⟩) ∧
    decode 0x0000000100000047 = .ok (.wrIntenset ⟨true, false⟩) ∧
    decode 0x0000008000000048 = .ok (.wrIntenclr ⟨false, true⟩) ∧
    decode 0x0000000000000049 = .ok .rdInten ∧
    decode 0x000000820000004A = .ok (.wrCtrl ⟨false, true, .count32, true, 0⟩) ∧
    decode 0x000000010000004A = .ok (.wrCtrl ⟨true, false, .count32, false, 0⟩) ∧
    decode 0x000000000000004B = .ok .rdCtrl := by decide

theorem test_decode_interrupt_and_variables :
    decode 0x0000000000000060 = .ok .nvicSetpend ∧ decode 0x0000000000000061 = .ok .nvicClrpend ∧
    decode 0x0000000000000062 = .ok .nvicEnable ∧ decode 0x0000000000000063 = .ok .nvicDisable ∧
    decode 0x0000000000000064 = .ok .irqLock ∧ decode 0x0000000100000065 = .ok (.irqUnlock 1) ∧
    decode 0x0000000000000270 = .ok (.ldVar .tickCount) ∧
    decode 0x0000000700000471 = .ok (.stVar .target 7) := by decide

/-- Texts and words of the table after 30 R97. -/
theorem test_assembler_text :
    (foreverT false).asm = "SET_TIMEOUT.T -1, 0" ∧ encode (foreverT false) = 0xFFFFFFFF00000002 ∧
    (Instr.setTimeoutP 3 true).asm = "SET_TIMEOUT.P 3, 1" ∧
    (Instr.stVar .target 7).asm = "ST_VAR TARGET, 7" ∧ (Instr.wrComp 50).asm = "WR_COMP 50" := by decide

/-- 30 R97. -/
theorem test_pseudo_operations :
    foreverP true = .setTimeoutP (BitVec.ofInt 32 (-1)) true ∧ forceIrq = .nvicSetpend ∧
    critBegin = .irqLock ∧ critEnd 1 = .irqUnlock 1 := by decide

theorem test_decode_unassigned :
    decode 0x0000000000000000 = .error .unassigned ∧ decode 0x000000000000004C = .error .unassigned ∧
    decode 0x00000000000000C0 = .error .unassigned ∧ decode 0x0000000000000081 = .error .unassigned := by
  decide

theorem test_decode_reserved :
    decode 0x0000000000000800 = .error .reservedBits ∧ decode 0x0000000080000001 = .error .reservedBits := by
  decide

theorem test_decode_field :
    decode 0x0000000000000103 = .error .field ∧ decode 0x0000000000000240 = .error .field ∧
    decode 0x0000000000000670 = .error .field ∧ decode 0x0000000100000003 = .error .field ∧
    decode 0x000000040000004A = .error .field ∧ decode 0x000001000000004A = .error .field ∧
    decode 0x000000100000004A = .error .field ∧ decode 0x0000000200000046 = .error .field ∧
    decode 0x0000000200000065 = .error .field := by decide

/-! ### States for the tests -/

/-- The operating state of a build after INIT, idle (70 R233, R234). -/
def ready (m : Mode) : State :=
  { State.launch (Config.build m) with
    swrstLanded := true, inited := true, irqEn := true, comp := initComp (Config.build m),
    ctrl := initCtrl m true, inten := modeFlags m }

/-- The next turns of `s`. -/
def turns (ts : List Turn) (s : State) : State :=
  { s with sched := ts }

/-- The sequencer is to perform the step of `f` in normal context. -/
def calling (f : Frame) (s : State) : State :=
  { s with issuer := .sequencer, seqNormal := some f }

/-- A test program's primitive in flight, the only one, is to perform the step of `f`. -/
def inFlight (f : Frame) (s : State) : State :=
  { s with issuer := .program 0, prims := [f] }

/-- The sequencer is to perform step `k` of the handler. -/
def handling (k : Nat) (s : State) : State :=
  { s with issuer := .sequencer, ctx := .isr,
           seqIsr := some { Frame.start (handlerOf s.cfg.mode) with k := k } }

/-- An announce callback is open. -/
def inCallback (s : State) : State :=
  { s with ctx := .isr, seqIsr := some { Frame.start (handlerOf s.cfg.mode) with k := 7 },
           seqAnn := some { Frame.start (.announce 5) with k := 2 } }

/-- The answer is a next state that passes `p`. -/
def gives (p : State → Bool) : Res → Bool
  | .next t => p t
  | _ => false

/-! ### Single steps: the vectors of 95 sections 2.2 to 2.13 -/

theorem test_counter_match : gives (fun t => t.count == 50 && t.intflag == ⟨true, false⟩)
    (step (turns [.counter] { ready .tickless with count := 49, comp := 50, syncOp := .writeComp 80 })) := by
  decide

theorem test_counter_equality_on_increment : gives (fun t => t.count == 51 && t.intflag == ⟨false, false⟩)
    (step (turns [.counter] { ready .tickless with count := 50, comp := 50 })) := by decide

theorem test_counter_wrap : gives (fun t => t.count == 0 && t.intflag == ⟨true, true⟩)
    (step (turns [.counter] { ready .tickless with count := 0xFFFFFFFF, comp := 0 })) := by decide

theorem test_counter_match_clears : gives (fun t => t.count == 0 && t.intflag == ⟨true, true⟩)
    (step (turns [.counter] { ready .periodic with count := 9 })) := by decide

theorem test_sync_lands_comp : gives (fun t => t.comp == 80 && t.syncOp == .none && !t.syncbusy)
    (step (turns [.sync] { ready .tickless with comp := 50, syncOp := .writeComp 80, syncbusy := true })) := by
  decide

theorem test_rd_count : gives (fun t => t.dest == 50 && !t.syncbusy)
    (runTurns [.issue 0x40, .counter, .sync, .program 0] { ready .tickless with count := 49 }) := by decide

/-- Section 2.3: RD_COUNT step 1, then RD_SYNCBUSY; and RD_COUNT still ends with the captured value. -/
theorem test_rd_syncbusy :
    gives (fun t => t.dest == 1 && t.syncOp == .readCount && t.log == []) (runTurns [.issue 0x40, .issue 0x44] (ready .tickless)) ∧
    gives (fun t => t.dest == 7 && t.prims == [])
      (runTurns [.issue 0x40, .issue 0x44, .sync, .program 0] { ready .tickless with count := 7 }) := by decide

/-- A primitive beside a call of the core that is under way (30 R94): the call goes on after it. -/
theorem test_primitive_beside_a_call : gives (fun t => t.dest == 1 && t.seqNormal.isSome && !t.refused)
    (runTurns [.issue 0x03, .issue 0x49] (ready .tickless)) := by decide

/-- 20 R70: two held writes land in the order of their issue, though the second is asked first. -/
theorem test_held_writes_in_order : gives (fun t => t.comp == 90 && t.syncOp == .none && t.prims == [])
    (runTurns [.issue 0x0000005000000041, .issue 0x0000005A00000041, .sync, .program 1, .program 0, .sync,
      .program 0, .sync] { ready .tickless with syncOp := .writeComp 70, syncbusy := true }) := by decide

/-- 30 R94: in interrupt context a primitive comes from the wrong issuer. -/
theorem test_primitive_in_handler : gives (fun t => t.log == [.refused .wrongIssuer])
    (step (turns [.issue 0x44] (handling 1 (ready .tickless)))) := by decide

theorem test_rd_comp_reads_the_landed_value : gives (fun t => t.dest == 50)
    (exec .rdComp { ready .tickless with comp := 50, syncOp := .writeComp 80, syncbusy := true }) := by decide

theorem test_wr_comp_holds : gives (fun t => t.comp == 80 && t.syncOp == .writeComp 90 && t.prims == [])
    (runTurns [.issue 0x0000005A00000041, .sync, .program 0]
      { ready .tickless with syncOp := .writeComp 80, syncbusy := true }) := by decide

theorem test_wait_sync : gives (fun t => t.prims == [] && t.log == []) (exec .waitSync (ready .tickless)) := by
  decide

theorem test_wr_intflag : gives (fun t => t.intflag == ⟨false, true⟩)
    (exec (.wrIntflag ⟨true, false⟩) { ready .tickless with intflag := ⟨true, true⟩ }) := by decide

theorem test_rd_intflag : gives (fun t => t.dest == 1 && t.intflag == ⟨true, false⟩)
    (exec .rdIntflag { ready .tickless with intflag := ⟨true, false⟩ }) := by decide

theorem test_wr_intenset_pends : gives (fun t => t.inten == ⟨true, false⟩ && t.irqPend)
    (step (turns [.issue 0x0000000100000047]
      { ready .tickless with inten := ⟨false, false⟩, intflag := ⟨true, false⟩ })) := by decide

theorem test_wr_intenclr : gives (fun t => t.inten == ⟨false, false⟩)
    (exec (.wrIntenclr ⟨true, true⟩) { ready .tickless with inten := ⟨true, true⟩ }) := by decide

theorem test_rd_inten : gives (fun t => t.dest == 1) (exec .rdInten (ready .tickless)) := by decide

theorem test_wr_ctrl_reset : gives (fun t => t.count == 0 && t.comp == 0 && t.ctrl == resetCtrl
      && t.inten == ⟨false, false⟩)
    (runTurns [.issue 0x000000010000004A, .sync] { ready .periodic with count := 7 }) := by decide

theorem test_wr_ctrl_unmodelled : gives (fun t => t.refused && t.log == [.refused .ctrlUnmodelled])
    (exec (.wrCtrl ⟨false, true, .code01, false, 0⟩) (ready .tickless)) := by decide

theorem test_rd_ctrl_shows_a_waiting_reset : gives (fun t => t.dest == 1)
    (exec .rdCtrl { ready .tickless with
      ctrl := resetCtrl, syncOp := .writeCtrl ⟨true, false, .count32, false, 0⟩ }) := by decide

theorem test_rd_ctrl_reads_the_landed_value : gives (fun t => t.dest == 2)
    (exec .rdCtrl { ready .tickless with syncOp := .writeCtrl resetCtrl }) := by decide

theorem test_nvic_setpend : gives (fun t => t.irqPend && t.intflag == ⟨false, false⟩)
    (exec .nvicSetpend (ready .tickless)) := by decide

theorem test_nvic_clrpend_under_level : gives (fun t => t.irqPend)
    (step (turns [.issue 0x61] { ready .tickless with irqPend := true, intflag := ⟨true, false⟩ })) := by decide

theorem test_nvic_enable : gives (fun t => t.irqEn) (exec .nvicEnable { ready .tickless with irqEn := false }) := by
  decide

theorem test_nvic_disable : gives (fun t => !t.irqEn && t.irqPend)
    (exec .nvicDisable { ready .tickless with irqPend := true }) := by decide

theorem test_irq_lock_nested : gives (fun t => t.dest == 1 && t.irqLocked)
    (exec .irqLock { ready .tickless with irqLocked := true }) := by decide

theorem test_irq_unlock_inner : gives (fun t => t.irqLocked)
    (exec (.irqUnlock 1) { ready .tickless with irqLocked := true }) := by decide

theorem test_irq_unlock_outer : gives (fun t => !t.irqLocked)
    (exec (.irqUnlock 0) { ready .tickless with irqLocked := true }) := by decide

theorem test_ld_var : gives (fun t => t.dest == 50) (exec (.ldVar .lastMark) { ready .tickless with lastMark := 50 }) := by
  decide

theorem test_st_var : gives (fun t => t.target == 7 && t.tickCount == 0)
    (exec (.stVar .target 7) (ready .periodic)) := by decide

theorem test_entry_masked : gives (fun t => t.ctx == .normal && t.irqPend)
    (step (turns [.enter] { ready .tickless with irqPend := true, irqLocked := true })) := by decide

theorem test_iret_latches_the_level : gives (fun t => t.ctx == .normal && t.irqPend)
    (exec .iret (handling 9 { ready .tickless with intflag := ⟨true, false⟩ })) := by decide

/-- Rows T1, T3, T6, T7, T9, T11, T12 and T14 of 95 section 2.5: the distance of each wait. -/
theorem test_wait_distances :
    let cfg := Config.build .tickless
    let r (ticks c m : Word) : Nat := waitDistance cfg (clampTicks cfg ticks) c m
    [r 5 0 0, r 0 7 0, r 2 123 100, r 0xFFFFFFFF 0 0, r 429496728 0 0, r 429496727 5 0,
      r 3 0xFFFFFFF5 0xFFFFFFF0, r 1 13 0] =
    [50, 10, 30, 4294967270, 4294967270, 4294967280, 40, 20] := by decide

/-- Row T2: a zero wait on the mark's phase forces the interrupt. -/
theorem test_set_timeout_t_forces : gives (fun t => t.irqPend && t.comp == 0 && t.seqNormal == none
      && t.log == [.returned .setTimeoutT .none])
    (exec (.setTimeoutT 0 false) (calling { Frame.start (.setTimeoutT 0 false) with k := 4 } (ready .tickless))) := by
  decide

/-- Row T12: the comparator wraps. -/
theorem test_set_timeout_t_wraps : gives (fun t => t.syncOp == .writeComp 0x1D)
    (exec (.setTimeoutT 3 false) (calling
      { Frame.start (.setTimeoutT 3 false) with k := 6, c := 0xFFFFFFF5, r := 40 } (ready .tickless))) := by decide

/-- Section 2.6. -/
theorem test_elapsed_ticks :
    let cfg := Config.build .tickless
    [elapsedTicks cfg 87 50, elapsedTicks cfg 59 50, elapsedTicks cfg 0x14 0xFFFFFFF0, elapsedTicks cfg 4 5] =
    [3, 0, 3, 429496729] := by decide

theorem test_query_elapsed_t : gives (fun t => t.log == [.returned .queryElapsedT (.ticks 3)])
    (exec .queryElapsedT (calling { Frame.start .queryElapsedT with k := 4, c := 87, m := 50 } (ready .tickless))) := by
  decide

/-- Section 2.10. -/
theorem test_query_elapsed_p : gives (fun t => t.log == [.returned .queryElapsedP (.ticks 2)])
    (exec .queryElapsedP (calling { Frame.start .queryElapsedP with k := 2, m := 0xFFFFFFFF }
      { ready .periodic with tickCount := 1 })) := by decide

theorem test_idle_exit_t : gives (fun t => t.log == [.returned .idleExitT .none]) (exec .idleExitT (ready .tickless)) := by
  decide

theorem test_idle_exit_p : gives (fun t => t.log == [.returned .idleExitP .none]) (exec .idleExitP (ready .periodic)) := by
  decide

/-- Row H1: the announce, and then the mark. -/
theorem test_isr_t_announces : gives (fun t => t.log == [.announce 5] && t.lastMark == 50)
    (runTurns [.proc, .hostReturn, .proc] (let s := handling 6 { ready .tickless with count := 50 }
      { s with seqIsr := s.seqIsr.map fun f => { f with c := 50 } })) := by decide

/-- Rows H3 and H4: COUNT at the mark. -/
theorem test_isr_t_equal :
    gives (fun t => t.log == []) (exec .isrT (handling 8 (ready .tickless))) ∧
    gives (fun t => t.log == [.announce 0])
      (exec .isrT (handling 8 { ready .tickless with
        cfg := { Config.build .tickless with announceZeroOnEqual := true } })) := by decide

/-- Row S4: the target wraps. -/
theorem test_set_timeout_p_wraps : gives (fun t => t.target == 3)
    (exec (.setTimeoutP 5 false) (calling
      { Frame.start (.setTimeoutP 5 false) with k := 3, tick := 0xFFFFFFFE } (ready .periodic))) := by decide

/-- Row S6: an outer lock stays. -/
theorem test_set_timeout_p_nested : gives (fun t => t.target == 23 && t.irqLocked)
    (runTurns [.issue 0x0000000300000082, .proc, .proc, .proc]
      { ready .periodic with tickCount := 20, irqLocked := true }) := by decide

/-- Row P1: the tick that meets the target. -/
theorem test_isr_p_target : gives (fun t => t.tickCount == 23 && t.lastMark == 23 && t.log == [.announce 3])
    (runTurns [.proc, .proc, .proc, .hostReturn, .proc]
      (handling 3 { ready .periodic with tickCount := 22, target := 23, lastMark := 20 })) := by decide

/-- Row P2: a forced interrupt. -/
theorem test_isr_p_forced : gives (fun t => t.tickCount == 22 && t.lastMark == 20 && t.log == [.announce 0])
    (runTurns [.proc, .proc, .proc] (handling 1 { ready .periodic with tickCount := 22, target := 23, lastMark := 20 })) := by
  decide

/-- Section 2.12: INIT's steps 15 and 21. -/
theorem test_init_preloads : gives (fun t => t.syncOp == .writeComp 10)
    (exec .init (calling { Frame.start .init with k := 15 } (ready .periodic))) := by decide

/-- 30 R89: the words of INIT's status. -/
theorem test_status_words : Result.ok.word = some 0 ∧ Result.fail.word = some 1 := by decide

theorem test_init_returns : gives (fun t => t.inited && t.log == [.returned .init .ok] && t.seqNormal == none)
    (exec .init (calling { Frame.start .init with k := 21 } { ready .tickless with inited := false })) := by decide

/-- Section 2.13: the callback's call reads the mark from before the report. -/
theorem test_announce_callback : gives (fun t => t.comp == 80 && t.ctx == .isr
      && t.log == [.returned .setTimeoutT .none])
    (runTurns [.issue 0x0000000300000002, .proc, .sync, .proc, .proc, .proc, .proc, .sync]
      (inCallback { ready .tickless with count := 50 })) := by decide

theorem test_announce_logs : gives (fun t => t.log == [.announce 5])
    (exec (.announce 5) { handling 7 (ready .tickless) with seqAnn := some (Frame.start (.announce 5)) }) := by decide

/-- Section 2.1 and 2.12: refusals. -/
theorem test_refusals :
    gives (fun t => t.log == [.refused .wrongMode]) (exec .queryElapsedP (ready .tickless)) ∧
    gives (fun t => t.log == [.refused .wrongMode]) (exec (.setTimeoutT 5 false) (ready .periodic)) ∧
    gives (fun t => t.log == [.refused .initTwice]) (exec .init (ready .tickless)) ∧
    gives (fun t => t.log == [.refused .notInited]) (exec .queryElapsedT State.reset) ∧
    gives (fun t => t.log == [.refused .wrongIssuer]) (exec (.announce 5) (ready .tickless)) ∧
    gives (fun t => t.log == [.refused .configInvalid])
      (step (State.launch { Config.build .periodic with cpt := 1 })) := by decide

/-! ### The host's two functions -/

theorem test_decode_table_word : decodeTableWord 64 0x0000000500000002 = some (.setTimeoutT 5 false) := by decide

theorem test_with_fetch_word : gives (fun t => t.seqNormal == some { Frame.start .init with k := 2 })
    (step (State.reset.withFetchWord 64 1)) := by decide

/-! ### Witnesses: for each statement with hypotheses, states and operands that meet them -/

theorem witness_DecodeAfterEncodeIsIdentity :
    (Instr.wrCtrl ⟨true, true, .count32, true, 0⟩).wf = true ∧ (Instr.irqUnlock 0).wf = true ∧
    (Instr.irqUnlock 1).wf = true ∧ (Instr.stVar .target 0xFFFFFFFF).wf = true := by decide

theorem witness_EncodeAfterDecodeIsIdentity :
    decode 0x0000000700000471 = .ok (.stVar .target 7) := by decide

theorem witness_ReservedBitsAreRefused :
    (0x800 : OpWord).extractLsb' 11 21 ≠ 0 ∧ (0x80000001 : OpWord).extractLsb' 11 21 ≠ 0 ∧
    State.reset.Running := by decide

theorem witness_UnassignedCodesAreRefused :
    (0x4C : OpWord).extractLsb' 11 21 = 0 ∧ lookup ((0x4C : OpWord).extractLsb' 0 8) = none ∧
    ((0x4C : OpWord).extractLsb' 0 8).toNat ∉
      [0x01, 0x02, 0x82, 0x03, 0x83, 0x04, 0x84, 0x05, 0x85, 0x06, 0x07, 0x40, 0x41, 0x42, 0x43, 0x44,
       0x45, 0x46, 0x47, 0x48, 0x49, 0x4A, 0x4B, 0x60, 0x61, 0x62, 0x63, 0x64, 0x65, 0x70, 0x71] ∧
    State.reset.Running := by decide

/-- A bad word and a good one: key 2 and key 1. -/
theorem witness_FieldConstraintsDecideAcceptance :
    let bad : OpWord := 0x0000000200000065
    let good : OpWord := 0x0000000100000065
    bad.extractLsb' 11 21 = 0 ∧ lookup (bad.extractLsb' 0 8) = some .irqUnlock ∧
    1 < (bad.extractLsb' 32 32).toNat ∧ decode bad = .error .field ∧
    good.extractLsb' 11 21 = 0 ∧ lookup (good.extractLsb' 0 8) = some .irqUnlock ∧
    (good.extractLsb' 32 32).toNat = 1 ∧ decode good = .ok (.irqUnlock 1) := by decide

theorem witness_StepRunsTheIssuedWord :
    (turns [.issue 1] State.reset).Running ∧ (turns [.issue 1] State.reset).sched = .issue 1 :: [] ∧
    decode 1 = .ok .init ∧ decodeTableWord 64 1 = some .init := by decide

/-- The call in normal context, the callback's call, the ANNOUNCE, the handler. -/
theorem witness_StepRunsTheRunningOperation :
    let f := Frame.start .idleExitT
    let s := turns [.proc] (calling f (ready .tickless))
    let c := { turns [.proc] (inCallback (ready .tickless)) with seqCall := some f }
    let a := turns [.proc] (inCallback (ready .tickless))
    let h := turns [.proc] (handling 1 (ready .tickless))
    let p := turns [.program 0] (inFlight (Frame.start .waitSync) (ready .tickless))
    (s.Running ∧ s.sched = [.proc] ∧ s.ctx = .normal ∧ s.seqNormal = some f) ∧
    (c.Running ∧ c.sched = [.proc] ∧ c.ctx = .isr ∧ c.seqCall = some f) ∧
    (a.Running ∧ a.sched = [.proc] ∧ a.ctx = .isr ∧ a.seqCall = none ∧ a.seqAnn.isSome) ∧
    (h.Running ∧ h.sched = [.proc] ∧ h.ctx = .isr ∧ h.seqCall = none ∧ h.seqAnn = none ∧ h.seqIsr.isSome) ∧
    (p.Running ∧ p.sched = [.program 0] ∧ p.ctx = .normal ∧ p.prims[0]? = some (Frame.start .waitSync)) := by
  decide

theorem witness_RefusedMachineHasNoStep : (refuse .field State.reset).refused = true := by decide

/-- Each bound just broken. -/
theorem witness_InvalidConfigurationIsRefused :
    let t := Config.build .tickless
    State.reset.refused = false ∧ (State.launch { t with cpt := 0 }).cfg.cpt = 0 ∧
    { Config.build .periodic with cpt := 1 }.cpt < 2 ∧
    2 ^ 32 - 1 < (t.maxTicks + 1) * t.cpt + 2 * (t.cpt - 1) ∧ { t with leadThreshold := 0 }.leadThreshold = 0 ∧
    t.valid = true := by decide

/-- The invariant in a handler with an open callback and a call in flight. -/
theorem witness_StepKeepsTheInvariant :
    ({ turns [.counter] (inCallback (ready .tickless)) with seqCall := some (Frame.start .idleExitT) } : State).Inv ∧
    gives (fun t => t.count == 1)
      (step { turns [.counter] (inCallback (ready .tickless)) with seqCall := some (Frame.start .idleExitT) }) := by
  refine ⟨?_, by decide⟩
  constructor <;> simp [turns, inCallback, ready, State.launch, Config.build, Frame.start, Frame.inRange,
    stepsOf, handlerOf, roleOf, Ctrl.modelled, initCtrl]

/-- The invariant in an idle machine, not refused. -/
theorem witness_NoStepFaults : (ready .periodic).Inv ∧ (ready .periodic).refused = false := by
  refine ⟨?_, by decide⟩
  constructor <;> simp [ready, State.launch, Config.build, Ctrl.modelled, initCtrl]

theorem witness_SyncBusyMirrorsTheSlot :
    let s := { turns [.sync] (ready .tickless) with syncOp := .readCount, syncbusy := true }
    (s.syncbusy = true ↔ s.syncOp ≠ .none) ∧ gives (fun t => t.syncOp == .none) (step s) ∧
    s.syncOp ≠ .none := by decide

theorem witness_LogOnlyGrows :
    gives (fun t => t.log == [.returned .idleExitT .none]) (step (turns [.issue 0x04] (ready .tickless))) := by decide

theorem witness_ConfigurationIsFixed :
    gives (fun t => t.inited && t.swrstLanded) (step (turns [.counter] (ready .tickless))) ∧
    (ready .tickless).inited = true ∧ (ready .tickless).swrstLanded = true := by decide

theorem handlerState_inv (m : Mode) (k : Nat) (ts : List Turn) (hk : 1 ≤ k ∧ k ≤ stepsOf (handlerOf m)) :
    (turns ts (handling k (ready m))).Inv := by
  cases m <;> constructor <;>
    simp_all [turns, handling, ready, State.launch, Config.build, Frame.start, Frame.inRange,
      stepsOf, handlerOf, Ctrl.modelled, initCtrl]

theorem witness_NormalContextIsFrozenInTheHandler :
    let s := turns [.proc] (handling 9 (ready .tickless))
    s.Inv ∧ s.ctx = .isr ∧ gives (fun t => t.ctx == .normal) (step s) :=
  ⟨handlerState_inv .tickless 9 _ (by decide), by decide, by decide⟩

theorem witness_HandlerIsEnteredOnlyByEntry :
    let s := turns [.enter] { ready .periodic with irqPend := true }
    s.ctx = .normal ∧ gives (fun t => t.ctx == .isr) (step s) := by decide

theorem witness_HandlerIsLeftOnlyByIret :
    let s := turns [.proc] (handling 8 (ready .periodic))
    s.Inv ∧ s.ctx = .isr ∧ gives (fun t => t.ctx == .normal) (step s) :=
  ⟨handlerState_inv .periodic 8 _ (by decide), by decide, by decide⟩

theorem witness_CountHasOnlyHardwareWriters :
    gives (fun t => t.count != 7) (step (turns [.counter] { ready .tickless with count := 7 })) ∧
    gives (fun t => t.count != 7) (step (turns [.sync] { ready .tickless with
      count := 7, syncOp := .writeCtrl ⟨true, false, .count32, false, 0⟩, syncbusy := true })) := by decide

theorem witness_VariablesHaveNamedWriters :
    gives (fun t => t.lastMark != 0) (step (turns [.issue 0x0000000700000071] (ready .tickless))) ∧
    gives (fun t => t.tickCount != 0) (step (turns [.proc] (handling 3 (ready .periodic)))) ∧
    gives (fun t => t.target != 0) (step (turns [.issue 0x0000000700000471] (ready .tickless))) := by decide

theorem witness_RegistersHaveNamedWriters :
    gives (fun t => t.comp != 0) (step (turns [.sync] { ready .tickless with
      syncOp := .writeComp 5, syncbusy := true })) ∧
    gives (fun t => t.ctrl != (ready .tickless).ctrl) (step (turns [.sync] { ready .tickless with
      syncOp := .writeCtrl resetCtrl, syncbusy := true })) ∧
    gives (fun t => t.inten != ⟨true, false⟩) (step (turns [.issue 0x0000008000000047] (ready .tickless))) ∧
    gives (fun t => !t.irqEn) (step (turns [.issue 0x63] (ready .tickless))) ∧
    gives (fun t => t.irqLocked) (step (turns [.issue 0x64] (ready .tickless))) ∧
    gives (fun t => t.inited) (step (turns [.proc] (calling { Frame.start .init with k := 21 }
      { ready .tickless with inited := false }))) := by decide

/-- The level in normal context, and the force-pending in the handler, at step 4 of SET_TIMEOUT.T and at
SET_TIMEOUT.P 0. -/
theorem witness_LevelLatchesThePendingBit :
    let s := turns [.counter] { ready .tickless with count := 49, comp := 50 }
    let c := turns [.proc] { inCallback (ready .tickless) with
      seqCall := some { Frame.start (.setTimeoutT 0 false) with k := 4 } }
    let p := turns [.issue (encode (.setTimeoutP 0 false))] (inCallback (ready .periodic))
    let f := { Frame.start (.setTimeoutT 0 false) with k := 4 }
    (s.Running ∧ gives (fun t => t.ctx == .normal && t.intflag.cmp && t.inten.cmp) (step s)) ∧
    (c.ctx = .isr ∧ c.irqPend = false ∧ gives (fun t => t.ctx == .isr && t.irqPend) (step c)) ∧
    (p.ctx = .isr ∧ p.irqPend = false ∧ gives (fun t => t.ctx == .isr && t.irqPend) (step p)) ∧
    (({ c with issuer := .sequencer } : State).CallAt f 4 ∧
      ({ ready .tickless with seqNormal := some f, issuer := .sequencer } : State).CallAt f 4 ∧
      waitDistance c.cfg f.t f.c f.m < c.cfg.leadThreshold) ∧
    (inCallback (ready .periodic)).AcceptsCall .periodic ∧
    (inCallback (ready .periodic)).irqPend = false := by decide

/-- A machine in which the counter stands still and no agent's step is enabled. -/
def still : State :=
  { ready .tickless with ctrl := resetCtrl }

/-- A machine in which the counter returns to 0 at each turn, with no interrupt source enabled. -/
def circling : State :=
  { ready .periodic with comp := 1, inten := Flags.empty, intflag := Flags.both }

/-- An answer that compares equal to `u` is `u`. -/
theorem next_of_gives {r : Res} {u : State} (h : gives (fun t => decide (t = u)) r = true) : r = .next u := by
  cases r with
  | next t => simpa [gives] using h
  | fault _ => cases h
  | refused _ => cases h

/-- In an idle machine the only agents whose step may be enabled are the counter, the slot's and entry. -/
theorem idle_stepEnabled {s : State} (hn : s.ctx = .normal) (hs : s.seqNormal = none) (hp : s.prims = [])
    (t : Turn) :
    s.stepEnabled t = (match t with
      | .counter => s.ctrl.enable
      | .sync => s.syncOp != .none
      | .enter => s.entryEnabled
      | _ => false) := by
  cases t <;> simp [State.stepEnabled, State.currentOp, State.programOp, hn, hs, hp]

/-- A run that takes one step to an idle machine with nothing enabled is weakly fair. -/
theorem fair_to_still (t : Turn) (s u : State) (h : step { s with sched := t :: s.sched } = .next u)
    (hu : step { u with sched := .sync :: u.sched } = .next u) (hi : u.ctx = .normal ∧ u.seqNormal = none ∧
      u.prims = [] ∧ u.ctrl.enable = false ∧ u.syncOp = .none ∧ u.entryEnabled = false) :
    ∃ τ σ, RunAlong τ σ ∧ WeaklyFair τ σ ∧ σ 0 = s := by
  refine ⟨fun n => if n = 0 then t else .sync, fun n => if n = 0 then s else u, ?_, ?_, rfl⟩
  · intro n
    rcases n with _ | n
    · exact h
    · exact hu
  · intro t _ n hm
    have he : u.stepEnabled t = true := hm (n + 1) (by omega)
    rw [idle_stepEnabled hi.1 hi.2.1 hi.2.2.1] at he
    cases t <;> simp_all

/-- The states of the run that takes the turns `ts` from `s` and then stays. -/
def after : List Turn → State → Nat → State
  | [], s, _ => s
  | _ :: _, s, 0 => s
  | t :: ts, s, n + 1 =>
    match step { s with sched := t :: s.sched } with
    | .next u => after ts u n
    | .fault _ => s
    | .refused _ => s

/-- The turns of that run: `ts`, and the synchronisation unit's for ever after. -/
def turnOf (ts : List Turn) (n : Nat) : Turn :=
  ts.getD n .sync

/-- The turns `ts` are answered from `s`, and then a turn of the synchronisation unit changes nothing. -/
abbrev settles (ts : List Turn) (s : State) : Prop :=
  gives (fun u => gives (fun t => decide (t = u)) (step { u with sched := .sync :: u.sched })) (runTurns ts s) = true

theorem after_zero (ts : List Turn) (s : State) : after ts s 0 = s := by
  cases ts <;> rfl

/-- Turns that settle make an infinite run. -/
theorem run_of_settles {ts : List Turn} {s : State} (h : settles ts s) : RunAlong (turnOf ts) (after ts s) := by
  induction ts generalizing s with
  | nil => exact fun n => next_of_gives h
  | cons t ts ih =>
    unfold settles at h
    simp only [runTurns] at h
    cases hs : step { s with sched := t :: s.sched } with
    | next u =>
      simp only [hs] at h
      rintro (_ | n)
      · simp [turnOf, after, hs, after_zero]
      · simp only [after, hs]
        exact ih h n
    | fault r => simp [hs, gives] at h
    | refused r => simp [hs, gives] at h

/-- Once its turns are over, the run stays where they left it. -/
theorem after_length (ts : List Turn) (s : State) (k : Nat) :
    after ts s (ts.length + k) = after ts s ts.length := by
  induction ts generalizing s with
  | nil => rfl
  | cons t ts ih =>
    rw [List.length_cons, Nat.add_right_comm]
    simp only [after]
    split <;> simp [ih]

/-- After the turns every turn is the synchronisation unit's. -/
theorem turnOf_other {ts : List Turn} {n : Nat} (h : turnOf ts n ≠ .sync) : n < ts.length := by
  by_contra hn
  exact h (by simp [turnOf, Nat.le_of_not_lt hn])

theorem circling_circles : step { circling with sched := .counter :: circling.sched } = .next circling :=
  next_of_gives (by decide)

/-- Enabled, and each condition broken alone; and a weakly fair run that starts with entry enabled and masks
it. -/
theorem witness_EntryHappensExactlyWhenEnabled :
    let s := turns [.enter] { ready .tickless with irqPend := true }
    (s.Running ∧ s.sched = .enter :: [] ∧
      (s.irqPend = true ∧ s.irqEn = true ∧ s.irqLocked = false ∧ s.ctx = .normal) ∧
      ¬ (turns [.enter] (ready .tickless)).irqPend = true) ∧
    ∃ τ σ, RunAlong τ σ ∧ WeaklyFair τ σ ∧ (σ 0).entryEnabled = true := by
  refine ⟨by decide, ?_⟩
  obtain ⟨τ, σ, hr, hf, h0⟩ := fair_to_still (.issue 0x64) { still with irqPend := true }
    { still with irqPend := true, irqLocked := true } rfl rfl (by decide)
  exact ⟨τ, σ, hr, hf, by rw [h0]; decide⟩

/-- ENABLE 0; MATCHCLR 0; MATCHCLR 1 on the match and beside it; and a weakly fair run with the counter
enabled for good. -/
theorem witness_CounterTurnCountsWhenEnabled :
    let t := turns [.counter] (ready .tickless)
    let p := turns [.counter] { ready .periodic with count := 9 }
    (t.Running ∧ t.sched = .counter :: [] ∧ t.swrstLanded = true ∧ t.ctrl.enable = true ∧ t.ctrl.matchclr = false) ∧
    ({ t with ctrl := resetCtrl } : State).ctrl.enable = false ∧
    (p.Running ∧ p.ctrl.enable = true ∧ p.ctrl.matchclr = true ∧ p.count + 1 = p.comp) ∧
    ({ p with count := 8 } : State).count + 1 ≠ p.comp ∧
    ∃ τ σ, RunAlong τ σ ∧ WeaklyFair τ σ ∧ ∀ m, 0 ≤ m → (σ m).ctrl.enable = true := by
  refine ⟨by decide, by decide, by decide, by decide, fun _ => .counter, fun _ => circling,
    fun _ => circling_circles, ?_, fun _ _ => rfl⟩
  intro t _ n hm
  have he : circling.stepEnabled t = true := hm n (Nat.le_refl n)
  rw [idle_stepEnabled rfl rfl rfl] at he
  refine ⟨n, Nat.le_refl n, ?_⟩
  cases t with
  | counter => rfl
  | _ => exact absurd he (by first | decide | simp)

/-- `j` at 0 and at the distance, and COMP equal to COUNT. -/
theorem witness_FreeRunningCounterMatchesOnArrival :
    let s := { ready .tickless with count := 49, comp := 50 }
    s.Running ∧ s.swrstLanded = true ∧ s.ctrl.enable = true ∧ s.ctrl.matchclr = false ∧
    s.comp ≠ s.count ∧ 0 ≤ (s.comp - s.count).toNat ∧ 1 ≤ (s.comp - s.count).toNat ∧
    (ready .tickless).comp = (ready .tickless).count := by decide

theorem witness_MatchClearCounterHasPeriodComp :
    let s := { ready .periodic with count := 9 }
    s.Running ∧ s.swrstLanded = true ∧ s.ctrl.enable = true ∧ s.ctrl.matchclr = true ∧
    s.count.toNat < s.comp.toNat := by decide

/-- SET_TIMEOUT.T for two ticks of one count each, from step 1 to its landing, a counter step before it and one
after. -/
def waiting : List Turn :=
  [.issue 0x0000000200000002, .proc, .sync, .proc, .proc, .proc, .proc, .counter, .sync, .counter]

/-- The machine that takes those turns. -/
def oneCount : State :=
  { ready .tickless with cfg := { Config.build .tickless with cpt := 1, leadThreshold := 1 } }

/-- The one write path of that run. -/
theorem waiting_path : ∃ f, f.r = 2 ∧ f.c = 0 ∧ WritePath (turnOf waiting) (after waiting oneCount) 3 6 8 f := by
  refine ⟨_, ?_, ?_, ⟨2, false, ?_⟩, ⟨_, ?_, rfl, rfl, rfl, rfl⟩, ⟨by omega, rfl, rfl, rfl, rfl, rfl⟩, ?_,
    by omega, rfl, ?_⟩
  · rfl
  · rfl
  · rfl
  · rfl
  · intro m h1 h2
    interval_cases m <;> exact ⟨_, rfl, rfl, by decide⟩
  · intro m h1 h2
    interval_cases m
    decide

theorem waiting_lead : LeadTimeOk (turnOf waiting) (after waiting oneCount) := by
  rintro a b e f ⟨-, -, ⟨hab, -, hb⟩, -, hbe, -, he⟩
  have hl := turnOf_other (n := b) (ts := waiting) (by rw [hb.1]; decide)
  have hk : (after waiting oneCount b).callFrame.map (·.k) = some 6 := by rw [hb.2.1]; simp [hb.2.2.1]
  have h6 : b = 6 := (by decide : ∀ n < 10, (after waiting oneCount n).callFrame.map (·.k) = some 6 → n = 6) b hl hk
  subst h6
  have hr : f.r = 2 :=
    Option.some.inj ((congrArg (Option.map Frame.r) hb.2.1).symm.trans
      (by decide : (after waiting oneCount 6).callFrame.map Frame.r = some 2))
  have h8 : e ≤ 8 := Nat.le_of_not_lt fun h => he 8 (by omega) h rfl
  have h3 : ∀ a < 6, counterSteps (turnOf waiting) (after waiting oneCount) a 8 < 2 := by decide
  exact hr ▸ Nat.lt_of_le_of_lt (counterSteps_mono h8) (h3 a hab)

/-- The most counter steps that the premise allows; and a run with the landing after one counter step of two. -/
theorem witness_ComparatorFiresUnderLeadTime :
    (let s := { ready .tickless with count := 7, syncOp := .writeComp 10, syncbusy := true }
    s.Running ∧ s.swrstLanded = true ∧ s.ctrl.enable = true ∧ s.ctrl.matchclr = false ∧ 3 < 2 ^ 32 ∧
    counterTurns (List.replicate 2 .counter ++ [.sync]) < 3 ∧ s.count = 7 ∧
    s.syncOp = .writeComp (7 + BitVec.ofNat 32 3)) ∧
    ∃ τ σ f, RunAlong τ σ ∧ LeadTimeOk τ σ ∧ WritePath τ σ 3 6 8 f ∧ (σ 3).count = f.c ∧
      (∀ k, 3 ≤ k → k ≤ 9 →
        (σ k).swrstLanded = true ∧ (σ k).ctrl.enable = true ∧ (σ k).ctrl.matchclr = false) ∧
      (∀ k v, 8 < k → k ≤ 9 → τ k = .sync → (σ k).syncOp ≠ .writeComp v) ∧
      τ 9 = .counter ∧ counterSteps τ σ 3 10 = f.r := by
  refine ⟨by decide, turnOf waiting, after waiting oneCount, ?_⟩
  obtain ⟨f, hr, hc, hp⟩ := waiting_path
  refine ⟨f, run_of_settles (by decide), waiting_lead, hp, ?_, ?_, ?_, rfl, ?_⟩
  · rw [hc]; decide
  · intro k h1 h2
    interval_cases k <;> decide
  · intro k v h1 h2 h
    interval_cases k
    cases h
  · rw [hr]; decide

theorem witness_SyncTurnLandsTheSlot :
    let s (op : SyncOp) : State := { turns [.sync] (ready .tickless) with syncOp := op, syncbusy := true }
    let reset : Ctrl := ⟨true, false, .count32, false, 0⟩
    (s .readCount).Running ∧ (s .readCount).sched = .sync :: [] ∧ (s (.writeComp 5)).syncOp = .writeComp 5 ∧
    (turns [.sync] (ready .tickless)).syncOp = .none ∧ (s (.writeCtrl resetCtrl)).syncOp = .writeCtrl resetCtrl ∧
    (resetCtrl.swrst = false ∧ (s (.writeCtrl reset)).syncOp = .writeCtrl reset ∧ reset.swrst = true) ∧
    ∃ τ σ, RunAlong τ σ ∧ WeaklyFair τ σ ∧ (σ 0).syncOp ≠ .none := by
  refine ⟨by decide, by decide, by decide, by decide, by decide, by decide, ?_⟩
  obtain ⟨τ, σ, hr, hf, h0⟩ := fair_to_still .sync { still with syncOp := .readCount, syncbusy := true } still rfl rfl (by decide)
  exact ⟨τ, σ, hr, hf, by rw [h0]; decide⟩

/-- In an idle context, and beside a call under way and a primitive in flight. -/
theorem witness_SynchronisedAccessesStartOnAnEmptySlot :
    let s := calling (Frame.start .queryElapsedT) (inFlight { Frame.start .rdCount with k := 2 } (ready .tickless))
    ((ready .tickless).AcceptsPrimitive ∧ (ready .tickless).SlotFree) ∧
    (({ s with issuer := .host } : State).AcceptsPrimitive ∧ ({ s with issuer := .host } : State).SlotFree) ∧
    resetCtrl.mode = .count32 ∧ resetCtrl.prescaler = 0 := by decide

/-- The slot occupied, an earlier primitive waiting, and the slot free. -/
theorem witness_SecondSynchronisedAccessHolds :
    let busy := { ready .tickless with syncOp := .readCount, syncbusy := true }
    let f := Frame.start (.wrComp 90)
    let waiting := { ready .tickless with prims := [f] }
    (busy.AcceptsPrimitive ∧ ¬ busy.SlotFree) ∧ (waiting.AcceptsPrimitive ∧ ¬ waiting.SlotFree) ∧
    resetCtrl.modelled = true ∧
    ((inFlight f busy).PrimitiveAt 0 f 1 ∧ ¬ (inFlight f busy).SlotFree) ∧
    ((inFlight f (ready .tickless)).PrimitiveAt 0 f 1 ∧ (inFlight f (ready .tickless)).SlotFree) := by decide

theorem witness_RdCountReturnsTheCapture :
    let f := Frame.start .rdCount
    let g := { f with k := 2 }
    let busy := { ready .tickless with syncOp := .readCount, syncbusy := true }
    ((ready .tickless).AcceptsPrimitive ∧ (ready .tickless).SlotFree) ∧
    ((inFlight f (ready .tickless)).PrimitiveAt 0 f 1 ∧ (inFlight f (ready .tickless)).SlotFree) ∧
    ((inFlight g (ready .tickless)).PrimitiveAt 0 g 2 ∧ (inFlight g (ready .tickless)).syncOp = .none) ∧
    ((inFlight g busy).PrimitiveAt 0 g 2 ∧ (inFlight g busy).syncOp ≠ .none) := by decide

/-- The state of the statements on immediate reads, flag writes, the controller, the mask and the variables:
idle, and with a call under way. -/
theorem witness_ImmediateReadsReturnTheRegister :
    ((ready .tickless).AcceptsPrimitive ∧ (ready .tickless).SlotFree) ∧
    ({ ready .periodic with seqNormal := some (Frame.start .queryElapsedP) } : State).AcceptsPrimitive := by decide

theorem witness_RdCtrlReturnsTheLandedControl :
    (ready .tickless).AcceptsPrimitive ∧
    ({ ready .tickless with syncOp := .writeCtrl ⟨true, false, .count32, false, 0⟩ } : State).AcceptsPrimitive := by
  decide

theorem witness_FlagWritesActOnTheGivenBits :
    (ready .tickless).AcceptsPrimitive ∧
    gives (fun t => t.inten == ⟨false, false⟩) (exec (.wrIntenclr ⟨true, false⟩) (ready .tickless)) := by decide

theorem witness_UnmodelledControlIsRefused :
    (ready .tickless).AcceptsPrimitive ∧ (⟨false, true, .code11, false, 0⟩ : Ctrl).mode ≠ .count32 ∧
    (⟨false, true, .count32, false, 1⟩ : Ctrl).prescaler ≠ 0 := by decide

theorem witness_ControllerPrimitivesSetTheirBit :
    ({ ready .tickless with irqPend := true } : State).AcceptsPrimitive := by decide

theorem witness_MaskIsSavedAndRestored :
    ({ ready .tickless with irqLocked := true } : State).AcceptsPrimitive ∧ 1 < (2 : Word).toNat := by decide

theorem witness_StVarWritesTheVariable : ({ ready .periodic with target := 9 } : State).AcceptsPrimitive := by decide

theorem witness_OtherModeIsRefused :
    (ready .tickless).issuer = .host ∧ (ready .tickless).cfg.mode = .tickless ∧
    (ready .periodic).issuer = .host ∧ (ready .periodic).cfg.mode = .periodic := by decide

theorem witness_WrongIssuerIsRefused :
    let s (m : Mode) : State := { handling 1 (ready m) with issuer := .host }
    ((s .tickless).issuer = .host ∧ (s .tickless).ctx = .isr ∧ (s .tickless).callbackOpen = false ∧
      (s .tickless).cfg.mode = .tickless) ∧ roleOf .rdSyncbusy = .primitive ∧
    ((s .periodic).ctx = .isr ∧ (s .periodic).callbackOpen = false ∧ (s .periodic).cfg.mode = .periodic) := by
  decide

theorem witness_InitComesFirstAndOnce :
    let f := { Frame.start .init with k := 21 }
    (calling f { ready .tickless with inited := false }).CallAt f 21 ∧
    ((ready .tickless).issuer = .host ∧ (ready .tickless).inited = true) ∧
    (State.reset.issuer = .host ∧ State.reset.inited = false ∧ State.reset.ctx = .normal ∧
      State.reset.cfg.mode = .tickless ∧ (State.launch (Config.build .periodic)).cfg.mode = .periodic) := by
  decide

theorem witness_ConcurrentCallIsRefused :
    let s (m : Mode) : State := { ready m with seqNormal := some (Frame.start .queryElapsedT) }
    let c (m : Mode) : State := inCallback (ready m)
    ((s .tickless).issuer = .host ∧ (s .tickless).inited = true ∧ (s .tickless).ctx = .normal ∧
      (s .tickless).seqNormal ≠ none ∧ (s .periodic).cfg.mode = .periodic) ∧
    ((c .tickless).issuer = .host ∧ (c .tickless).ctx = .isr ∧ (c .tickless).callbackOpen = true ∧
      (c .tickless).seqCall = none ∧ (c .periodic).callbackOpen = true) := by decide

/-- INIT at its start, at its first and last steps, and held. -/
theorem witness_InitPerformsItsStepsInOrder :
    let s (k : Nat) : State := calling { Frame.start .init with k := k } { ready .periodic with inited := false }
    let busy := { s 8 with syncOp := .readCount, syncbusy := true }
    (State.reset.Idle ∧ State.reset.inited = false) ∧
    ((s 1).issuer = .sequencer ∧ (s 1).ctx = .normal ∧ (s 1).seqNormal = some { Frame.start .init with k := 1 }) ∧
    ((s 21).seqNormal = some { Frame.start .init with k := 21 } ∧ (s 21).syncOp = .none) ∧
    ((s 15).cfg.mode = .periodic ∧ State.reset.cfg.mode = .tickless ∧ busy.syncOp ≠ .none) := by decide

theorem witness_InitEntersItsPhases :
    State.reset.Idle ∧ State.reset.inited = false ∧ State.reset.irqEn = false := by decide

/-- The phases of INIT at their first step, while the reset waits, and before the last step. -/
theorem witness_InitProtocolHoldsUnderEveryInterleaving :
    (let f := { Frame.start .init with k := 2 }
     ({ State.reset with seqNormal := some f } : State).InitPhase f) ∧
    (let f := { Frame.start .init with k := 12 }
     ({ State.reset with
        seqNormal := some f, syncOp := .writeCtrl { resetCtrl with swrst := true }, syncbusy := true } :
      State).InitPhase f) ∧
    (let f := { Frame.start .init with k := 20 }
     ({ ready .tickless with seqNormal := some f, irqEn := false, inited := false } : State).InitPhase f) ∧
    gives (fun t => t.seqNormal == some { Frame.start .init with k := 3 })
      (step { turns [.proc] State.reset with seqNormal := some { Frame.start .init with k := 2 } }) ∧
    ({ turns [.proc] State.reset with seqNormal := some { Frame.start .init with k := 2 } } : State).performed =
      some .init ∧ roleOf .init ≠ .primitive := by
  refine ⟨?_, ?_, ?_, by decide, by decide, by decide⟩
  all_goals constructor <;> simp [State.reset, State.launch, Config.build, ready, Frame.start, Flags.empty,
    initComp, modeFlags]

theorem witness_AnnounceLogsAndOpensTheCallback :
    let f := Frame.start (.announce 5)
    let s := { handling 7 (ready .tickless) with seqAnn := some f }
    let c := turns [.hostReturn] (inCallback (ready .tickless))
    (s.issuer = .sequencer ∧ s.seqAnn = some f ∧ f.k = 1) ∧
    (c.Running ∧ c.sched = .hostReturn :: [] ∧ c.seqAnn = some { f with k := 2 } ∧ c.seqCall = none) ∧
    ({ c with seqCall := some (Frame.start .idleExitT) } : State).seqCall ≠ none := by decide

theorem witness_IretReturnsToNormalContext :
    (handling 9 (ready .tickless)).issuer = .sequencer ∧ (handling 9 (ready .tickless)).ctx = .isr := by decide

/-- The call in normal context and in the callback, and the two sides of the threshold. -/
theorem witness_SetTimeoutTPerformsItsSteps :
    let i := Instr.setTimeoutT 5 false
    let f (k t : Nat) : Frame := { Frame.start i with k := k, t := t }
    let s (k t : Nat) : State := calling (f k t) (ready .tickless)
    let cfg := Config.build .tickless
    State.AcceptsCall .tickless (ready .tickless) ∧ State.AcceptsCall .tickless (inCallback (ready .tickless)) ∧
    (s 2 5).CallAt (f 2 5) 2 ∧ (s 3 5).CallAt (f 3 5) 3 ∧ (s 5 5).CallAt (f 5 5) 5 ∧ (s 6 5).CallAt (f 6 5) 6 ∧
    ((s 4 0).CallAt (f 4 0) 4 ∧ waitDistance cfg 0 0 0 < cfg.leadThreshold) ∧
    ((s 4 5).CallAt (f 4 5) 4 ∧ cfg.leadThreshold ≤ waitDistance cfg 5 0 0) ∧
    ({ s 2 5 with syncOp := .readCount } : State).syncOp ≠ .none ∧ (s 2 5).syncOp = .none := by decide

/-- The largest configuration and a zero wait on the mark's phase. -/
theorem witness_WaitDistanceIsBoundedAndRounded :
    (Config.build .tickless).valid = true ∧ ((7 : Word) - 7).toNat % 10 = 0 ∧
    { Config.build .tickless with cpt := 1, maxTicks := 2 ^ 32 - 1 }.valid = true := by decide

theorem witness_ComparatorLandsOnTheReadPhase :
    (Config.build .tickless).valid = true ∧
    ((123 : Word) - 100).toNat + waitDistance (Config.build .tickless) 2 123 100 < 2 ^ 32 := by decide

/-- Above the threshold and below it. -/
theorem witness_SetTimeoutTProgramsOrForces :
    let s := ready .tickless
    s.Running ∧ s.ctx = .normal ∧ s.seqNormal = none ∧ s.cfg.mode = .tickless ∧ s.inited = true ∧
    s.syncOp = .none ∧ s.cfg.leadThreshold ≤ waitDistance s.cfg (clampTicks s.cfg 5) s.count s.lastMark ∧
    waitDistance s.cfg (clampTicks s.cfg 0) s.count s.lastMark < s.cfg.leadThreshold := by decide

theorem witness_QueryElapsedPerformsItsSteps :
    let f (i : Instr) (k : Nat) : Frame := { Frame.start i with k := k }
    let s (i : Instr) (m : Mode) (k : Nat) : State := calling (f i k) (ready m)
    State.AcceptsCall .tickless (ready .tickless) ∧ State.AcceptsCall .periodic (ready .periodic) ∧
    (s .queryElapsedT .tickless 2).CallAt (f .queryElapsedT 2) 2 ∧
    (s .queryElapsedT .tickless 3).CallAt (f .queryElapsedT 3) 3 ∧
    (s .queryElapsedT .tickless 4).CallAt (f .queryElapsedT 4) 4 ∧
    (s .queryElapsedP .periodic 2).CallAt (f .queryElapsedP 2) 2 ∧
    (s .queryElapsedT .tickless 2).syncOp = .none ∧
    ({ s .queryElapsedT .tickless 2 with syncOp := .readCount } : State).syncOp ≠ .none := by decide

theorem witness_IdleExitOnlyLogs :
    State.AcceptsCall .tickless (ready .tickless) ∧ State.AcceptsCall .periodic (inCallback (ready .periodic)) := by
  decide

/-- Every step of the handler, on both sides of step 5's test. -/
theorem witness_IsrTPerformsItsSteps :
    let f (k : Nat) : Frame := { Frame.start .isrT with k := k }
    let s (k : Nat) : State := handling k (ready .tickless)
    (∀ k ∈ [1, 2, 3, 4, 5, 6, 7, 8, 9], (s k).HandlerAt (f k) k ∧ (s k).syncOp = .none) ∧
    (f 5).c = (s 5).lastMark ∧ (f 5).c ≠ ({ s 5 with lastMark := 1 } : State).lastMark ∧
    ({ s 3 with syncOp := .readCount } : State).syncOp ≠ .none ∧ (s 8).cfg.announceZeroOnEqual = false ∧
    { Config.build .tickless with announceZeroOnEqual := true }.announceZeroOnEqual = true := by decide

/-- Two handlers of the tickless core up to the second one's capture, one counter step between the captures. -/
def twoReports : List Turn :=
  [.enter, .proc, .proc, .proc, .sync, .proc, .proc, .proc, .hostReturn, .proc, .proc, .issue 0x60, .enter,
    .proc, .proc, .counter, .proc, .sync]

/-- The machine that takes those turns. -/
def reporting : State :=
  { ready .tickless with irqPend := true, count := 50 }

theorem twoReports_interval : ReportIntervalOk (turnOf twoReports) (after twoReports reporting) := by
  intro a d b _ _ hb _
  have hl : b < 18 := by
    by_contra hn
    have hs := hb.2.2.1
    rw [show b = twoReports.length + (b - 18) by simp [twoReports]; omega, after_length] at hs
    exact absurd hs (by decide)
  have hc : counterSteps (turnOf twoReports) (after twoReports reporting) (a + 1) b ≤ b - (a + 1) :=
    Nat.le_trans List.countP_le_length (by simp)
  omega

/-- COUNT beyond the mark, and at it; and a run with a counter step between a report and the next capture. -/
theorem witness_IsrTReportsAndMovesTheMark :
    (let s := { ready .tickless with irqPend := true, count := 50 }
    (s.Running ∧ s.cfg.mode = .tickless ∧ s.ctx = .normal ∧ s.irqPend = true ∧ s.irqEn = true ∧
      s.irqLocked = false ∧ s.syncOp = .none ∧ s.seqAnn = none ∧ s.seqCall = none ∧ s.count ≠ s.lastMark) ∧
    ({ s with lastMark := 50 } : State).count = 50 ∧ s.cfg.announceZeroOnEqual = false) ∧
    ∃ τ σ, RunAlong τ σ ∧ ReportIntervalOk τ σ ∧ MarkedFrom τ σ 4 9 ∧ handlerCapture τ σ 17 ∧
      (∀ m f, 9 < m → m < 17 → ¬ handlerStep τ σ m f 7) ∧
      (∀ k, 4 < k → k ≤ 17 →
        (σ k).swrstLanded = true ∧ (σ k).ctrl.enable = true ∧ (σ k).ctrl.matchclr = false) ∧
      counterSteps τ σ 5 17 = 1 := by
  refine ⟨by decide, turnOf twoReports, after twoReports reporting, run_of_settles (by decide),
    twoReports_interval, .report 4 9 _ (by omega) ⟨rfl, rfl, rfl, _, rfl, rfl, rfl⟩ ⟨rfl, rfl, rfl, rfl, rfl, rfl⟩ ?_,
    ⟨rfl, rfl, rfl, _, rfl, rfl, rfl⟩, ?_, ?_, by decide⟩
  · intro m h1 h2
    interval_cases m <;> exact ⟨_, rfl, rfl, by decide⟩
  · rintro m f h1 h2 ⟨-, -, -, -, hf, hk⟩
    have h7 : (after twoReports reporting m).seqIsr.map Frame.k = some 7 := by rw [hf]; simp [hk]
    interval_cases m <;> exact absurd h7 (by decide)
  · intro k h1 h2
    interval_cases k <;> decide

/-- The zero, the negative and the positive wait. -/
theorem witness_SetTimeoutPPerformsItsSteps :
    let f (k : Nat) : Frame := { Frame.start (.setTimeoutP 1 false) with k := k }
    let s (k : Nat) : State := calling (f k) (ready .periodic)
    State.AcceptsCall .periodic (ready .periodic) ∧ State.AcceptsCall .periodic (inCallback (ready .periodic)) ∧
    (1 : Word) ≠ 0 ∧ (s 2).CallAt (f 2) 2 ∧ (s 3).CallAt (f 3) 3 ∧ (s 4).CallAt (f 4) 4 ∧
    (0xFFFFFFFF : Word).toInt < 0 ∧ (0x80000000 : Word).toInt < 0 ∧ 0 < (1 : Word).toInt ∧
    0 < (0x7FFFFFFF : Word).toInt := by decide

theorem witness_SetTimeoutPIsACriticalSection :
    let s := ready .periodic
    s.Running ∧ s.ctx = .normal ∧ s.seqNormal = none ∧ s.cfg.mode = .periodic ∧ s.inited = true ∧ (3 : Word) ≠ 0 ∧
    (∀ t ∈ [Turn.counter, .enter] ++ [.sync] ++ [.enter], t = .counter ∨ t = .sync ∨ t = .enter) := by decide

/-- Every step of the handler, on both sides of step 4's test. -/
theorem witness_IsrPPerformsItsSteps :
    let f (k : Nat) : Frame := { Frame.start .isrP with k := k }
    let s (k : Nat) : State := handling k (ready .periodic)
    (∀ k ∈ [1, 2, 3, 4, 5, 6, 7, 8], (s k).HandlerAt (f k) k) ∧
    (f 4).tick = (s 4).target ∧ (f 4).tick ≠ ({ s 4 with target := 1 } : State).target := by decide

/-- A period end, the whole handler, and the next period end. -/
def twoPeriods : List Turn :=
  [.counter, .enter, .proc, .proc, .proc, .proc, .proc, .counter, .counter]

/-- The machine that takes those turns. -/
def periodic : State :=
  { ready .periodic with count := 1, comp := 2 }

theorem twoPeriods_end {n : Nat} (h : periodEnd (turnOf twoPeriods) (after twoPeriods periodic) n = true) :
    n = 0 ∨ n = 8 := by
  have ht : turnOf twoPeriods n = .counter := by
    simp only [periodEnd, counterStep, Bool.and_eq_true, beq_iff_eq] at h
    exact h.1.1.1.1
  have hl : n < 9 := turnOf_other (ts := twoPeriods) (by rw [ht]; decide)
  exact (by decide : ∀ n < 9, periodEnd (turnOf twoPeriods) (after twoPeriods periodic) n = true → n = 0 ∨ n = 8)
    n hl h

theorem twoPeriods_latency : PeriodicLatencyOk (turnOf twoPeriods) (after twoPeriods periodic) := by
  intro a b hab ha hb
  obtain rfl | rfl := twoPeriods_end ha <;> obtain rfl | rfl := twoPeriods_end hb
  · omega
  · exact ⟨2, _, by omega, by omega, rfl, rfl, rfl, rfl, rfl, rfl⟩
  · omega
  · omega

/-- No primitive is performed in that run. -/
theorem twoPeriods_performed (m : Nat) (i : Instr)
    (h : performedAt (turnOf twoPeriods) (after twoPeriods periodic) m = some i) : roleOf i ≠ .primitive := by
  obtain hl | hl := Nat.lt_or_ge m 9
  · have hd : ∀ m < 9, (performedAt (turnOf twoPeriods) (after twoPeriods periodic) m).map roleOf
        ≠ some .primitive := by decide
    intro hr
    exact hd m hl (by rw [h]; simp [hr])
  · have ht : turnOf twoPeriods m = .sync := by simp [turnOf, twoPeriods, hl]
    simp [performedAt, State.performed, nextTurn, ht] at h

/-- The fewest counter steps, with the target at the next tick and elsewhere; and a run of two periods, the
first one's tick counted and the second one's still in OVF. -/
theorem witness_OneHandlerRunCountsOneTick :
    (let s := { ready .periodic with count := 9, target := 1 }
    (s.Running ∧ s.cfg.mode = .periodic ∧ s.swrstLanded = true ∧ s.ctrl.enable = true ∧ s.ctrl.matchclr = true ∧
      s.inten = ⟨false, true⟩ ∧ s.ctx = .normal ∧ s.irqEn = true ∧ s.irqLocked = false ∧ s.seqAnn = none ∧
      s.seqCall = none ∧ s.count.toNat < s.comp.toNat ∧ s.comp.toNat ≤ s.count.toNat + 1) ∧
    s.tickCount + 1 = s.target ∧ s.tickCount + 1 ≠ ({ s with target := 0 } : State).target) ∧
    ∃ τ σ, RunAlong τ σ ∧ PeriodicLatencyOk τ σ ∧
      (∀ m f, periodEnd τ σ m = true → (σ m).seqIsr = some f → f.k ≠ 2) ∧
      (∀ m i, performedAt τ σ m = some i → roleOf i ≠ .primitive) ∧
      (σ 0).Inv ∧ (σ 0).cfg.mode = .periodic ∧ (σ 0).inited = true ∧ (σ 0).ctx = .normal ∧
      (σ 0).seqNormal = none ∧ (σ 0).syncOp = .none ∧ (σ 0).swrstLanded = true ∧
      (σ 0).ctrl = initCtrl .periodic true ∧ (σ 0).count.toNat < (σ 0).comp.toNat ∧
      (σ 0).intflag = ⟨false, false⟩ ∧ (σ 9).ctx = .normal ∧ (σ 9).tickCount = 1 ∧ periodEnds τ σ 9 = 2 := by
  refine ⟨by decide, turnOf twoPeriods, after twoPeriods periodic, run_of_settles (by decide),
    twoPeriods_latency, ?_, twoPeriods_performed, ?_, by decide⟩
  · intro m f hm hf
    obtain rfl | rfl := twoPeriods_end hm <;> cases hf
  · rw [after_zero]
    constructor <;> simp [periodic, ready, State.launch, Config.build, Ctrl.modelled, initCtrl]

end Sys2Proof.Tests
end

section
/-! PROOF. 10 R34 (O14): SYNCBUSY mirrors the synchronisation slot. An operation leaves the slot as it is or
fills it when it is empty; only the synchronisation unit empties it. -/

namespace Sys2Proof.Machine

/-- SYNCBUSY = 1 exactly when the slot holds an operation (10 R34). -/
def State.SlotMirrored (s : State) : Prop :=
  s.syncbusy = true ↔ s.syncOp ≠ .none

/-- The slot and SYNCBUSY are as they were, or the slot was empty and now holds an operation, SYNCBUSY
being 1. -/
def KeepsOrFillsSlot (s s' : State) : Prop :=
  (s'.syncOp = s.syncOp ∧ s'.syncbusy = s.syncbusy) ∨
  (s.syncOp = .none ∧ s'.syncOp ≠ .none ∧ s'.syncbusy = true)

theorem KeepsOrFillsSlot.of_eq {s s' : State} (ho : s'.syncOp = s.syncOp) (hb : s'.syncbusy = s.syncbusy) :
    KeepsOrFillsSlot s s' :=
  .inl ⟨ho, hb⟩

theorem KeepsOrFillsSlot.slotMirrored {s s' : State} (h : KeepsOrFillsSlot s s') (hm : s.SlotMirrored) :
    s'.SlotMirrored := by
  unfold State.SlotMirrored at hm ⊢
  obtain ⟨ho, hb⟩ | ⟨-, ho, hb⟩ := h
  · rwa [ho, hb]
  · exact ⟨fun _ => ho, fun _ => hb⟩

/-- What is done to the other fields after an access is posted does not matter to the slot. -/
theorem KeepsOrFillsSlot.trans_eq {s u s' : State} (h : KeepsOrFillsSlot s u) (ho : s'.syncOp = u.syncOp)
    (hb : s'.syncbusy = u.syncbusy) : KeepsOrFillsSlot s s' := by
  unfold KeepsOrFillsSlot
  rwa [ho, hb]

theorem postSync_fillsSlot {op : SyncOp} (hop : op ≠ .none) {s u : State} (h : postSync op s = some u) :
    KeepsOrFillsSlot s u := by
  obtain ⟨he, rfl⟩ := postSync_eq_some h
  exact .inr ⟨he, hop, rfl⟩

theorem awaitSync_keepsSlot {s u : State} (h : awaitSync s = some u) : KeepsOrFillsSlot s u := by
  obtain ⟨-, rfl⟩ := awaitSync_eq_some h
  exact .of_eq rfl rfl

/-! ### The steps of an operation, by what they answer -/

/-- If the answer is a next state, then the slot was kept or filled on the way to it. -/
def AnswerKeepsOrFills (s : State) (o : Res) : Prop :=
  ∀ s', o = .next s' → KeepsOrFillsSlot s s'

/-- Every step of the body of an operation keeps or fills the slot. -/
abbrev BodyKeepsOrFills (body : Frame → State → Res) : Prop :=
  ∀ f s, AnswerKeepsOrFills s (body f s)

theorem AnswerKeepsOrFills.next {s t : State} (ho : t.syncOp = s.syncOp := by rfl)
    (hb : t.syncbusy = s.syncbusy := by rfl) : AnswerKeepsOrFills s (.next t) := by
  rintro _ ⟨⟩
  exact .of_eq ho hb

theorem AnswerKeepsOrFills.fault (s : State) (r : Fault) : AnswerKeepsOrFills s (.fault r) := by
  rintro _ ⟨⟩

/-- A refusal writes REFUSED and LOG only. -/
theorem AnswerKeepsOrFills.refuse (r : Reason) (s : State) : AnswerKeepsOrFills s (.next (refuse r s)) :=
  .next

/-- A step that may hold keeps or fills the slot if the access it waits for does and what follows the access
leaves the slot alone. -/
theorem orHold_keepsOrFills {f : Frame} {s : State} {o : Option State} {go : State → State}
    (ha : ∀ u, o = some u → KeepsOrFillsSlot s u) (ho : ∀ u, (go u).syncOp = u.syncOp)
    (hb : ∀ u, (go u).syncbusy = u.syncbusy) : AnswerKeepsOrFills s (orHold f s o go) := by
  intro s' h
  obtain ⟨-, rfl⟩ | ⟨u, hu, rfl⟩ := orHold_cases h
  · exact .of_eq rfl rfl
  · exact (ha u hu).trans_eq (ho u) (hb u)

/-- A step that holds until the slot takes its access. -/
theorem AnswerKeepsOrFills.post {f : Frame} {s : State} {op : SyncOp} {go : State → State}
    (hop : op ≠ .none := by simp) (ho : ∀ u, (go u).syncOp = u.syncOp := by exact fun _ => rfl)
    (hb : ∀ u, (go u).syncbusy = u.syncbusy := by exact fun _ => rfl) :
    AnswerKeepsOrFills s (orHold f s (postSync op s) go) :=
  orHold_keepsOrFills (fun _ => postSync_fillsSlot hop) ho hb

/-- A step that holds until the slot is empty. -/
theorem AnswerKeepsOrFills.await {f : Frame} {s : State} {go : State → State}
    (ho : ∀ u, (go u).syncOp = u.syncOp := by exact fun _ => rfl)
    (hb : ∀ u, (go u).syncbusy = u.syncbusy := by exact fun _ => rfl) :
    AnswerKeepsOrFills s (orHold f s (awaitSync s) go) :=
  orHold_keepsOrFills (fun _ => awaitSync_keepsSlot) ho hb

/-- `orHold_keepsOrFills` for a step of a test program's primitive (30 R94). -/
theorem orWait_keepsOrFills {f : Frame} {s : State} {o : Option State} {go : State → State}
    (ha : ∀ u, o = some u → KeepsOrFillsSlot s u) (ho : ∀ u, (go u).syncOp = u.syncOp)
    (hb : ∀ u, (go u).syncbusy = u.syncbusy) : AnswerKeepsOrFills s (orWait f s o go) := by
  intro s' h
  obtain ⟨-, rfl⟩ | ⟨u, hu, rfl⟩ := orWait_cases h
  · exact .of_eq rfl rfl
  · exact (ha u hu).trans_eq (ho u) (hb u)

theorem perform_keepsOrFills {i : Instr} {a : Option Reason} {body : Frame → State → Res}
    (hb : BodyKeepsOrFills body) (s : State) : AnswerKeepsOrFills s (perform i a body s) := by
  intro s' h
  obtain ⟨r, -, -, rfl⟩ | ⟨-, -, hs⟩ | ⟨f, -, -, hs⟩ := perform_cases h
  · exact .of_eq rfl rfl
  · exact hb _ _ _ hs
  · exact hb _ _ _ hs

theorem performPrimitive_keepsOrFills {i : Instr} {body : Frame → State → Res}
    (hb : BodyKeepsOrFills body) (s : State) : AnswerKeepsOrFills s (performPrimitive i body s) := by
  intro s' h
  obtain ⟨-, -, rfl⟩ | ⟨-, -, hs⟩ | ⟨n, f, -, -, hs⟩ := performPrimitive_cases h
  · exact .of_eq rfl rfl
  · exact hb _ _ _ hs
  · exact hb _ _ _ hs

theorem oneStep_keepsOrFills {eff : State → State} (ho : ∀ s, (eff s).syncOp = s.syncOp)
    (hb : ∀ s, (eff s).syncbusy = s.syncbusy) : BodyKeepsOrFills (oneStep eff) := by
  intro f s s' h
  obtain ⟨-, rfl⟩ := oneStep_cases h
  exact .of_eq (ho s) (hb s)

theorem waitStep_keepsOrFills {eff : State → Option State}
    (he : ∀ s u, eff s = some u → KeepsOrFillsSlot s u) : BodyKeepsOrFills (waitStep eff) := by
  intro f s s' h
  obtain ⟨-, ⟨-, rfl⟩ | ⟨u, -, hu, rfl⟩⟩ := waitStep_cases h
  · exact .of_eq rfl rfl
  · exact (he s u hu).trans_eq rfl rfl

/-! ### The bodies of the primitives -/

theorem rdCountStep_keepsOrFills : BodyKeepsOrFills rdCountStep := by
  intro f s
  unfold rdCountStep
  split
  · exact orWait_keepsOrFills (fun u hu => postSync_fillsSlot (by decide) (inOrder_eq_some hu).2)
      (fun _ => rfl) (fun _ => rfl)
  · exact orWait_keepsOrFills (fun _ => awaitSync_keepsSlot) (fun _ => rfl) (fun _ => rfl)
  · exact .fault _ _

theorem wrCompStep_keepsOrFills (v : Word) : BodyKeepsOrFills (waitStep (postSync (.writeComp v))) :=
  waitStep_keepsOrFills fun _ _ => postSync_fillsSlot (by simp)

theorem wrCtrlStep_keepsOrFills (c : Ctrl) : BodyKeepsOrFills (wrCtrlStep c) := by
  intro f s
  unfold wrCtrlStep
  split
  · exact waitStep_keepsOrFills (fun _ _ => postSync_fillsSlot (by simp)) f s
  · exact .refuse _ s

theorem waitSyncStep_keepsOrFills : BodyKeepsOrFills (waitStep awaitSync) :=
  waitStep_keepsOrFills fun _ _ => awaitSync_keepsSlot

theorem irqUnlockStep_keepsOrFills (key : Word) : BodyKeepsOrFills (irqUnlockStep key) := by
  intro f s
  unfold irqUnlockStep
  split
  · exact oneStep_keepsOrFills (eff := unlockWith key) (fun _ => rfl) (fun _ => rfl) f s
  · exact .refuse _ s

/-! ### The bodies of the composite operations -/

/-- Step 15 posts COMP in a PERIODIC build only (43 R186). -/
theorem initStep_keepsOrFills : BodyKeepsOrFills initStep := by
  intro f s
  unfold initStep
  split
  · exact .next
  · exact .next
  · exact .next
  · exact .next
  · exact .next
  · exact .next
  · exact .next
  · exact .await
  · exact .post
  · exact .await
  · exact .post
  · exact .await
  · exact .post
  · exact .await
  · split
    · exact .post
    · exact .next
  · exact .await
  · exact .next
  · exact .post
  · exact .await
  · exact .next
  · exact .next
  · exact .fault _ _

theorem setTimeoutTStep_keepsOrFills (ticks : Word) : BodyKeepsOrFills (setTimeoutTStep ticks) := by
  intro f s
  unfold setTimeoutTStep
  split
  · exact .next
  · exact .post
  · exact .await
  · split
    · exact .next
    · exact .next
  · exact .await
  · exact .post
  · exact .fault _ _

theorem queryElapsedTStep_keepsOrFills : BodyKeepsOrFills queryElapsedTStep := by
  intro f s
  unfold queryElapsedTStep
  split
  · exact .next
  · exact .post
  · exact .await
  · exact .next
  · exact .fault _ _

theorem idleExitTStep_keepsOrFills : BodyKeepsOrFills idleExitTStep := by
  intro f s
  unfold idleExitTStep
  split
  · exact .next
  · exact .fault _ _

theorem setTimeoutPStep_keepsOrFills (ticks : Word) : BodyKeepsOrFills (setTimeoutPStep ticks) := by
  intro f s
  unfold setTimeoutPStep
  split
  · split
    · exact .next
    · exact .next
  · exact .next
  · split
    · exact .next
    · exact .next
  · exact .next
  · exact .fault _ _

theorem queryElapsedPStep_keepsOrFills : BodyKeepsOrFills queryElapsedPStep := by
  intro f s
  unfold queryElapsedPStep
  split
  · exact .next
  · exact .next
  · exact .fault _ _

theorem idleExitPStep_keepsOrFills : BodyKeepsOrFills idleExitPStep := by
  intro f s
  unfold idleExitPStep
  split
  · exact .next
  · exact .fault _ _

/-! ### ANNOUNCE, IRET and the handlers -/

theorem execAnnounce_keepsOrFills (n : Word) (s : State) : AnswerKeepsOrFills s (execAnnounce n s) := by
  unfold execAnnounce
  split
  · exact .refuse _ s
  · split
    · exact .fault _ _
    · split
      · exact .next
      · exact .next
      · exact .fault _ _
  · exact .fault _ _

/-- The announcing step of a handler changes positions only, before ANNOUNCE performs its step 1. -/
theorem callAnnounce_keepsOrFills (n : Word) (f : Frame) (s : State) :
    AnswerKeepsOrFills s (callAnnounce n f s) :=
  execAnnounce_keepsOrFills n { s with seqIsr := some f, seqAnn := some (Frame.start (.announce n)) }

theorem execIret_keepsOrFills (s : State) : AnswerKeepsOrFills s (execIret s) := by
  unfold execIret
  split
  · exact .refuse _ s
  · exact .refuse _ s
  · exact .next
  · exact .fault _ _

/-- Steps 3 and 4 are those of RD_COUNT: the access is posted, then awaited. -/
theorem isrTStep_keepsOrFills : BodyKeepsOrFills isrTStep := by
  intro f s
  unfold isrTStep
  split
  · exact .next
  · exact .next
  · split
    · exact .next
    · next u hu =>
      rintro _ ⟨⟩
      exact (postSync_fillsSlot (by decide) hu).trans_eq rfl rfl
  · split
    · exact .next
    · next u hu =>
      rintro _ ⟨⟩
      exact (awaitSync_keepsSlot hu).trans_eq rfl rfl
  · exact .next
  · exact callAnnounce_keepsOrFills _ _ s
  · exact .next
  · split
    · exact callAnnounce_keepsOrFills _ _ s
    · exact .next
  · exact execIret_keepsOrFills s
  · exact .fault _ _

theorem isrPStep_keepsOrFills : BodyKeepsOrFills isrPStep := by
  intro f s
  unfold isrPStep
  split
  · exact .next
  · exact .next
  · exact .next
  · exact .next
  · exact callAnnounce_keepsOrFills _ _ s
  · exact .next
  · exact callAnnounce_keepsOrFills _ _ s
  · exact execIret_keepsOrFills s
  · exact .fault _ _

theorem execIsrT_keepsOrFills (s : State) : AnswerKeepsOrFills s (execIsrT s) := by
  unfold execIsrT
  split
  · exact .refuse _ s
  · split
    · exact .fault _ _
    · exact isrTStep_keepsOrFills _ s
  · exact .fault _ _

theorem execIsrP_keepsOrFills (s : State) : AnswerKeepsOrFills s (execIsrP s) := by
  unfold execIsrP
  split
  · exact .refuse _ s
  · split
    · exact .fault _ _
    · exact isrPStep_keepsOrFills _ s
  · exact .fault _ _

/-! ### Every operation -/

/-- No operation empties the slot, and the one that fills it sets SYNCBUSY (40 R110, R111, R120). -/
theorem exec_keepsOrFills (i : Instr) (s : State) : AnswerKeepsOrFills s (exec i s) := by
  cases i with
  | init => exact perform_keepsOrFills initStep_keepsOrFills s
  | setTimeoutT w _ => exact perform_keepsOrFills (setTimeoutTStep_keepsOrFills w) s
  | setTimeoutP w _ => exact perform_keepsOrFills (setTimeoutPStep_keepsOrFills w) s
  | queryElapsedT => exact perform_keepsOrFills queryElapsedTStep_keepsOrFills s
  | queryElapsedP => exact perform_keepsOrFills queryElapsedPStep_keepsOrFills s
  | idleExitT => exact perform_keepsOrFills idleExitTStep_keepsOrFills s
  | idleExitP => exact perform_keepsOrFills idleExitPStep_keepsOrFills s
  | isrT => exact execIsrT_keepsOrFills s
  | isrP => exact execIsrP_keepsOrFills s
  | announce n => exact execAnnounce_keepsOrFills n s
  | iret => exact execIret_keepsOrFills s
  | rdCount => exact performPrimitive_keepsOrFills rdCountStep_keepsOrFills s
  | wrComp v => exact performPrimitive_keepsOrFills (wrCompStep_keepsOrFills v) s
  | wrCtrl c => exact performPrimitive_keepsOrFills (wrCtrlStep_keepsOrFills c) s
  | waitSync => exact performPrimitive_keepsOrFills waitSyncStep_keepsOrFills s
  | irqUnlock key => exact performPrimitive_keepsOrFills (irqUnlockStep_keepsOrFills key) s
  | stVar x v =>
    exact performPrimitive_keepsOrFills
      (oneStep_keepsOrFills (fun s => setVar_syncOp s x v) (fun s => setVar_syncbusy s x v)) s
  | _ =>
    refine performPrimitive_keepsOrFills (oneStep_keepsOrFills ?_ ?_) s
    all_goals exact fun _ => rfl

/-! ### The agents -/

/-- The synchronisation unit's step leaves the slot empty, whatever it landed (40 R105, R106). -/
theorem syncUnit_syncOp (s : State) : (syncUnit s).syncOp = .none := by
  obtain ⟨he, e⟩ | ⟨_, -, e⟩ | ⟨_, -, -, e⟩ | ⟨_, -, -, e⟩ | ⟨-, e⟩ := syncUnit_cases s
  · rw [e, he]
  all_goals rw [e]
  rfl

theorem syncUnit_slotMirrored {s : State} (hm : s.SlotMirrored) : (syncUnit s).SlotMirrored := by
  obtain ⟨-, e⟩ | ⟨_, -, e⟩ | ⟨_, -, -, e⟩ | ⟨_, -, -, e⟩ | ⟨-, e⟩ := syncUnit_cases s
  · rwa [e]
  all_goals simp [e, State.SlotMirrored]

theorem counterAgent_keepsSlot (s : State) : KeepsOrFillsSlot s (counterAgent s) := by
  obtain ⟨-, e⟩ | ⟨-, -, e⟩ | ⟨-, -, -, e⟩ | ⟨-, -, -, e⟩ := counterAgent_cases s
  all_goals rw [e]; exact .of_eq rfl rfl

theorem interruptEntry_keepsSlot (s : State) : KeepsOrFillsSlot s (interruptEntry s) := by
  obtain ⟨-, e⟩ | ⟨-, e⟩ := interruptEntry_cases s
  all_goals rw [e]; exact .of_eq rfl rfl

theorem hostReturns_keepsSlot (s : State) : KeepsOrFillsSlot s (hostReturns s) := by
  obtain ⟨-, -, e⟩ | e := hostReturns_cases s
  all_goals rw [e]; exact .of_eq rfl rfl

/-! ### The step -/

/-- A step empties the slot only by a turn of the synchronisation unit; every other step keeps or fills it. -/
theorem step_slotMirrored {s s' : State} (hm : s.SlotMirrored) (h : step s = .next s') :
    s'.SlotMirrored := by
  obtain ⟨-, ⟨-, rfl⟩ | ⟨-, ht⟩⟩ := step_cases h
  · exact hm
  have hn : (nextTurn s).2.SlotMirrored := by simpa [State.SlotMirrored] using hm
  obtain ⟨u, rfl, hu⟩ := takeTurn_cases ht
  suffices hs : u.SlotMirrored from hs
  obtain ⟨w, -, hw⟩ | ⟨-, hp⟩ | ⟨n, -, hp⟩ | ⟨-, rfl⟩ | ⟨-, rfl⟩ | ⟨-, rfl⟩ | ⟨-, rfl⟩ := hu
  · obtain ⟨e, -, rfl⟩ | ⟨i, -, hi⟩ := issueWord_cases hw
    · exact hn
    · exact (exec_keepsOrFills i _ u hi).slotMirrored hn
  · obtain ⟨-, rfl⟩ | ⟨i, -, hi⟩ := proceed_cases hp
    · exact hn
    · exact (exec_keepsOrFills i _ u hi).slotMirrored hn
  · obtain ⟨-, rfl⟩ | ⟨i, -, hi⟩ := programStep_cases hp
    · exact hn
    · exact (exec_keepsOrFills i _ u hi).slotMirrored hn
  · exact (counterAgent_keepsSlot _).slotMirrored hn
  · exact syncUnit_slotMirrored hn
  · exact (interruptEntry_keepsSlot _).slotMirrored hn
  · exact (hostReturns_keepsSlot _).slotMirrored hn

/-- Settles O14: every operation keeps or fills the slot and only the synchronisation unit empties it. -/
theorem syncBusyMirrorsTheSlot : Obligations.SyncBusyMirrorsTheSlot :=
  ⟨fun _ _ hm h => step_slotMirrored hm h, fun _ => ⟨rfl, rfl⟩,
    fun s => ⟨softwareReset_syncOp s, syncUnit_syncOp s⟩, fun _ _ hs => postSync_of_busy hs⟩

end Sys2Proof.Machine
end

section
/-! PROOF. The encoding (30): O1, O2 and O6, the round trip between operations and words, and O3 and O4, the
words that spell no operation. Both ways of the round trip go through the row of 30 R90 that the word's code
selects and the field constraints of 30 R92 for that row. -/

namespace Sys2Proof

/-! ### The operation map and the field constraints -/

/-- The operation code of a row (30 R90). -/
def Row.code : Row → BitVec 8
  | .init => 0x01
  | .setTimeoutT => 0x02
  | .setTimeoutP => 0x82
  | .queryElapsedT => 0x03
  | .queryElapsedP => 0x83
  | .idleExitT => 0x04
  | .idleExitP => 0x84
  | .isrT => 0x05
  | .isrP => 0x85
  | .announce => 0x06
  | .iret => 0x07
  | .rdCount => 0x40
  | .wrComp => 0x41
  | .rdComp => 0x42
  | .waitSync => 0x43
  | .rdSyncbusy => 0x44
  | .rdIntflag => 0x45
  | .wrIntflag => 0x46
  | .wrIntenset => 0x47
  | .wrIntenclr => 0x48
  | .rdInten => 0x49
  | .wrCtrl => 0x4A
  | .rdCtrl => 0x4B
  | .nvicSetpend => 0x60
  | .nvicClrpend => 0x61
  | .nvicEnable => 0x62
  | .nvicDisable => 0x63
  | .irqLock => 0x64
  | .irqUnlock => 0x65
  | .ldVar => 0x70
  | .stVar => 0x71

/-- The operation map gives each code at most one row, and each row one code (30 R90). -/
theorem lookup_eq_some_iff {opc : BitVec 8} {row : Row} : lookup opc = some row ↔ opc = row.code := by
  constructor
  · intro h
    apply BitVec.eq_of_toNat_eq
    unfold lookup at h
    split at h <;> cases h <;> assumption
  · rintro rfl
    cases row <;> rfl

/-- A selector names a variable only if it is that variable's selector (30 R84). -/
theorem Var.ofBits_eq_some_iff {v : BitVec 2} {var : Var} : Var.ofBits v = some var ↔ v = var.toBits := by
  constructor
  · intro h
    apply BitVec.eq_of_toNat_eq
    unfold Var.ofBits at h
    split at h <;> cases h <;> assumption
  · rintro rfl
    exact Var.ofBits_toBits var

/-- The field constraints of 30 R92, one by one. -/
theorem Row.fieldsOk_iff {row : Row} {b : Bool} {v : BitVec 2} {imm : Word} :
    row.fieldsOk b v imm = true ↔
      (row.hasB = false → b = false) ∧ (row.hasV = false → v = 0) ∧ (row.hasImm = false → imm = 0) ∧
      (row = .wrCtrl → ctrlOk imm = true) ∧ (row.hasFlags = true → flagsOk imm = true) ∧
      (row = .irqUnlock → keyOk imm = true) := by
  simp only [Row.fieldsOk, Bool.and_eq_true, Bool.or_eq_true, Bool.not_eq_true', beq_iff_eq, bne_iff_ne,
    and_assoc]
  grind

/-- Fields that are all 0 meet the constraints of every row. -/
theorem Row.fieldsOk_zero (row : Row) : row.fieldsOk false 0 0 = true :=
  Row.fieldsOk_iff.2 ⟨fun _ => rfl, fun _ => rfl, fun _ => rfl, fun _ => rfl, fun _ => rfl, fun _ => rfl⟩

/-! ### The decoder's verdicts -/

/-- The decoder answers an operation exactly when the reserved bits are 0, the code has a row, the selector
names a variable and the fields meet the row's constraints; the operation is then the row's term (30 R98). -/
theorem decode_eq_ok_iff {w : OpWord} {i : Instr} :
    decode w = .ok i ↔ ∃ (row : Row) (var : Var), w.rsv = 0 ∧ w.opc = row.code ∧ w.v = var.toBits ∧
      row.fieldsOk w.b w.v w.imm = true ∧ i = row.term w.b var w.imm := by
  simp only [← lookup_eq_some_iff, ← Var.ofBits_eq_some_iff]
  constructor
  · intro h
    unfold decode at h
    split at h
    · cases h
    next hr =>
    split at h
    · cases h
    next row ho =>
    split at h
    · cases h
    next var hv =>
    split at h
    next hf => exact ⟨row, var, not_not.1 hr, ho, hv, hf, by cases h; rfl⟩
    · cases h
  · rintro ⟨row, var, hr, ho, hv, hf, rfl⟩
    simp [decode, hr, ho, hv, hf]

/-! ### Encoding, then decoding -/

/-- The word of fields that meet a row's constraints decodes to that row's term. -/
theorem decode_assemble {row : Row} {b : Bool} {var : Var} {imm : Word} {i : Instr}
    (hf : row.fieldsOk b var.toBits imm = true) (hi : row.term b var imm = i) :
    decode (assemble row.code b var.toBits imm) = .ok i :=
  decode_eq_ok_iff.2 ⟨row, var, by simpa using ⟨hf, hi.symm⟩⟩

/-- A code alone spells the row's operation with every operand 0. -/
theorem decode_assemble_plain (row : Row) :
    decode (assemble row.code false 0 0) = .ok (row.term false .lastMark 0) :=
  decode_assemble (var := .lastMark) row.fieldsOk_zero rfl

/-- An immediate alone, `B` and `V` being 0, meets the constraints of a row that takes it once it meets those
on its own bits. -/
theorem decode_assemble_imm {row : Row} {imm : Word} {i : Instr} (hm : row.hasImm = true)
    (hc : row = .wrCtrl → ctrlOk imm = true) (hf : row.hasFlags = true → flagsOk imm = true)
    (hk : row = .irqUnlock → keyOk imm = true) (hi : row.term false .lastMark imm = i) :
    decode (assemble row.code false 0 imm) = .ok i :=
  decode_assemble (var := .lastMark)
    (Row.fieldsOk_iff.2 ⟨fun _ => rfl, fun _ => rfl, fun h => by simp [hm] at h, hc, hf, hk⟩) hi

/-- The word of a well-formed operation decodes to it: its operands meet the constraints of its row, and the
row's term reads them back. -/
theorem decode_encode {i : Instr} (h : i.wf = true) : decode (encode i) = .ok i := by
  cases i with
  | init => exact decode_assemble_plain .init
  | setTimeoutT ticks isIdle =>
    exact decode_assemble (row := .setTimeoutT) (var := .lastMark)
      (Row.fieldsOk_iff.2 ⟨nofun, fun _ => rfl, nofun, nofun, nofun, nofun⟩) rfl
  | setTimeoutP ticks isIdle =>
    exact decode_assemble (row := .setTimeoutP) (var := .lastMark)
      (Row.fieldsOk_iff.2 ⟨nofun, fun _ => rfl, nofun, nofun, nofun, nofun⟩) rfl
  | queryElapsedT => exact decode_assemble_plain .queryElapsedT
  | queryElapsedP => exact decode_assemble_plain .queryElapsedP
  | idleExitT => exact decode_assemble_plain .idleExitT
  | idleExitP => exact decode_assemble_plain .idleExitP
  | isrT => exact decode_assemble_plain .isrT
  | isrP => exact decode_assemble_plain .isrP
  | announce n => exact decode_assemble_imm (row := .announce) rfl nofun nofun nofun rfl
  | iret => exact decode_assemble_plain .iret
  | rdCount => exact decode_assemble_plain .rdCount
  | wrComp value => exact decode_assemble_imm (row := .wrComp) rfl nofun nofun nofun rfl
  | rdComp => exact decode_assemble_plain .rdComp
  | waitSync => exact decode_assemble_plain .waitSync
  | rdSyncbusy => exact decode_assemble_plain .rdSyncbusy
  | rdIntflag => exact decode_assemble_plain .rdIntflag
  | wrIntflag flags =>
    exact decode_assemble_imm (row := .wrIntflag) rfl nofun (fun _ => flagsOk_toWord flags) nofun
      (congrArg Instr.wrIntflag flags.ofWord_toWord)
  | wrIntenset flags =>
    exact decode_assemble_imm (row := .wrIntenset) rfl nofun (fun _ => flagsOk_toWord flags) nofun
      (congrArg Instr.wrIntenset flags.ofWord_toWord)
  | wrIntenclr flags =>
    exact decode_assemble_imm (row := .wrIntenclr) rfl nofun (fun _ => flagsOk_toWord flags) nofun
      (congrArg Instr.wrIntenclr flags.ofWord_toWord)
  | rdInten => exact decode_assemble_plain .rdInten
  | wrCtrl value =>
    obtain ⟨hread, hok⟩ := Ctrl.ofWord_toWord h
    exact decode_assemble_imm (row := .wrCtrl) rfl (fun _ => hok) nofun nofun
      (congrArg Instr.wrCtrl hread)
  | rdCtrl => exact decode_assemble_plain .rdCtrl
  | nvicSetpend => exact decode_assemble_plain .nvicSetpend
  | nvicClrpend => exact decode_assemble_plain .nvicClrpend
  | nvicEnable => exact decode_assemble_plain .nvicEnable
  | nvicDisable => exact decode_assemble_plain .nvicDisable
  | irqLock => exact decode_assemble_plain .irqLock
  | irqUnlock key => exact decode_assemble_imm (row := .irqUnlock) rfl nofun nofun (fun _ => h) rfl
  | ldVar var =>
    exact decode_assemble (row := .ldVar)
      (Row.fieldsOk_iff.2 ⟨fun _ => rfl, nofun, fun _ => rfl, nofun, nofun, nofun⟩) rfl
  | stVar var value =>
    exact decode_assemble (row := .stVar)
      (Row.fieldsOk_iff.2 ⟨fun _ => rfl, nofun, nofun, nofun, nofun, nofun⟩) rfl

/-- Settles O1: `decode_encode`. -/
theorem decodeAfterEncodeIsIdentity : Obligations.DecodeAfterEncodeIsIdentity :=
  fun _ => decode_encode

/-! ### Decoding, then encoding -/

/-- The word of a row's term is assembled from the fields that the term was read from, if they meet the row's
constraints: a field that the term does not hold is 0. -/
theorem encode_term {row : Row} {b : Bool} {var : Var} {imm : Word}
    (h : row.fieldsOk b var.toBits imm = true) :
    encode (row.term b var imm) = assemble row.code b var.toBits imm := by
  obtain ⟨hb, hv, hi, hc, hf, -⟩ := Row.fieldsOk_iff.1 h
  cases row with
  | setTimeoutT | setTimeoutP => rw [hv rfl]; rfl
  | announce | wrComp | irqUnlock => rw [hb rfl, hv rfl]; rfl
  | wrIntflag | wrIntenset | wrIntenclr =>
    rw [hb rfl, hv rfl]
    exact congrArg (assemble _ false 0) (Flags.toWord_ofWord (hf rfl))
  | wrCtrl =>
    rw [hb rfl, hv rfl]
    exact congrArg (assemble _ false 0) (Ctrl.toWord_ofWord (hc rfl)).1
  | ldVar => rw [hb rfl, hi rfl]; rfl
  | stVar => rw [hb rfl]; rfl
  | _ => rw [hb rfl, hv rfl, hi rfl]; rfl

/-- The term of a row whose fields meet its constraints is well formed. -/
theorem wf_term {row : Row} {b : Bool} {v : BitVec 2} {var : Var} {imm : Word}
    (h : row.fieldsOk b v imm = true) : (row.term b var imm).wf = true := by
  obtain ⟨-, -, -, hc, -, hk⟩ := Row.fieldsOk_iff.1 h
  cases row with
  | wrCtrl => exact (Ctrl.toWord_ofWord (hc rfl)).2
  | irqUnlock => exact hk rfl
  | _ => rfl

/-- Settles O2: the fields of an accepted word are those of the operation's word, and a word with `RSV` 0 is
assembled from its fields. -/
theorem encodeAfterDecodeIsIdentity : Obligations.EncodeAfterDecodeIsIdentity := by
  intro w i h
  obtain ⟨row, var, hr, ho, hv, hf, rfl⟩ := decode_eq_ok_iff.1 h
  refine ⟨?_, wf_term hf⟩
  rw [hv] at hf
  rw [encode_term hf, ← ho, ← hv, assemble_fields hr]

/-! ### Known words -/

/-- A word that is the encoding of a well-formed operation decodes to it. -/
theorem decode_of_encode_eq {i : Instr} {w : OpWord} (h : encode i = w) (hi : i.wf = true) :
    decode w = .ok i :=
  h ▸ decode_encode hi

/-- Settles O6: each word is the encoding of the operation it stands for. -/
theorem knownWordsDecode : Obligations.KnownWordsDecode := by
  refine ⟨?_, ?_, ?_, ?_, ?_, ?_, ?_, ?_, ?_, ?_, ?_⟩
  all_goals exact decode_of_encode_eq rfl rfl

end Sys2Proof

namespace Sys2Proof.Machine

/-! ### Words that spell no operation -/

/-- A running machine that is issued a word the decoder does not accept is refused with the verdict as the
reason (30 R86, R91, R92; 60 R204). -/
theorem step_issuing_error {w : OpWord} {e : DecodeError} (h : decode w = .error e) {s : State}
    (hs : s.Running) :
    ∃ t, step (s.issuing w) = .next t ∧ t.refused = true ∧ t.log = s.log ++ [.refused (reasonOf e)] := by
  obtain ⟨hr, hv⟩ := hs
  have hw : issueWord w s = .next (refuse (reasonOf e) s) := by
    simp [issueWord, h]
  have ht : step (s.issuing w) = settle (issueWord w s) := step_running hr hv
  exact ⟨_, by rw [ht, hw, settle_next], rfl, rfl⟩

/-- Settles O3: the decoder tests the reserved bits first. -/
theorem reservedBitsAreRefused : Obligations.ReservedBitsAreRefused := by
  intro w hr
  have hd : decode w = .error .reservedBits := if_pos hr
  exact ⟨hd, fun _ => step_issuing_error hd⟩

/-- Settles O4: a code with a row is one of the listed codes, so a code outside the list has none. -/
theorem unassignedCodesAreRefused : Obligations.UnassignedCodesAreRefused := by
  intro w hr ho
  have hl : lookup w.opc = none := by
    refine Option.eq_none_iff_forall_ne_some.2 fun row h => ho ?_
    have hc : w.extractLsb' 0 8 = row.code := lookup_eq_some_iff.1 h
    rw [hc]
    cases row <;> decide
  have hd : decode w = .error .unassigned := by
    have hr' : w.rsv = 0 := hr
    simp [decode, hr', hl]
  exact ⟨hd, fun _ => step_issuing_error hd⟩

end Sys2Proof.Machine
end

section
/-! PROOF. 60 R205 (O23): the level latches IRQ_PEND in normal context; in interrupt context an operation sets it
only at a force-pending. The second part goes through the bodies of the operations that run there. -/

namespace Sys2Proof.Machine

/-! ### The level and the latch -/

/-- The level is asserted when an enabled source has its flag set (60 R203). -/
theorem level_eq (s : State) :
    s.level = (s.intflag.cmp && s.inten.cmp || s.intflag.ovf && s.inten.ovf) := by
  simp [State.level, Flags.inter, Flags.isEmpty]

theorem latch_of_isr {s : State} (hc : s.ctx = .isr) : latch s = s := by
  have hn : (s.ctx == .normal) = false := by rw [hc]; rfl
  simp [latch, hn]

theorem latch_irqPend_of_level {s : State} (hc : s.ctx = .normal) (hl : s.level = true) :
    (latch s).irqPend = true := by
  simp [hc, hl]

/-- A step of a running machine ends with the latch. -/
theorem step_latched {s s' : State} (hr : s.Running) (h : step s = .next s') : ∃ u, s' = latch u := by
  obtain ⟨hf, hv⟩ := hr
  rw [step_running hf hv] at h
  obtain ⟨u, hu, -⟩ := takeTurn_cases h
  exact ⟨u, hu⟩

/-! ### The force-pending -/

/-- Performing `i` in `s` is a force-pending: step 4 of SET_TIMEOUT.T below the threshold (41 R141), or
SET_TIMEOUT.P with ticks 0 (42 R161). -/
def ForcePends (i : Instr) (s : State) : Prop :=
  (∃ t b f, i = .setTimeoutT t b ∧ s.callFrame = some f ∧ f.k = 4 ∧
    waitDistance s.cfg f.t f.c f.m < s.cfg.leadThreshold) ∨
  (∃ b, i = .setTimeoutP 0 b)

/-- `ticks` read as an `s32` is 0 only for the word 0. -/
theorem ticksOf_eq_zero {ticks : Word} : ticksOf ticks = 0 ↔ ticks = 0 :=
  BitVec.toInt_inj (y := 0)

/-- The host's call is admitted where `AcceptsCall` says so. -/
theorem admitCall_of_acceptsCall {m : Mode} {s : State} (h : s.AcceptsCall m) : admitCall m s = none := by
  obtain ⟨-, hm, hi, ⟨hc, hn⟩ | ⟨hc, ho, hn⟩⟩ := h
  · exact admitCall_eq_none.2 ⟨hm, hi, by simp [State.callFrame, hc, hn], by simp [hc]⟩
  · exact admitCall_eq_none.2 ⟨hm, hi, by simp [State.callFrame, hc, hn], fun _ => ho⟩

/-- SET_TIMEOUT.P with ticks 0 ends in its step 1, IRQ_PEND set. -/
theorem exec_setTimeoutP_zero {s : State} (b : Bool) (h : s.AcceptsCall .periodic) :
    exec (.setTimeoutP 0 b) s = .next (({ s with irqPend := true } : State).endCall .setTimeoutP .none) := by
  change perform _ (admitCall .periodic s) _ s = _
  rw [admitCall_of_acceptsCall h, perform_admitted h.1]
  rfl

/-- Below the threshold SET_TIMEOUT.T ends in its step 4, IRQ_PEND set. -/
theorem exec_setTimeoutT_below {s : State} (ticks : Word) (b : Bool) {f : Frame} (h : s.CallAt f 4)
    (hd : waitDistance s.cfg f.t f.c f.m < s.cfg.leadThreshold) :
    exec (.setTimeoutT ticks b) s =
      .next (({ s with irqPend := true } : State).endCall .setTimeoutT .none) := by
  obtain ⟨hi, hf, hk⟩ := h
  change perform _ _ (setTimeoutTStep ticks) s = _
  rw [perform_sequencer hi hf]
  simp [setTimeoutTStep, hk, hd]

/-! ### What an answer that stays in interrupt context does to IRQ_PEND -/

/-- If the answer is a next state in interrupt context, then IRQ_PEND went from 0 to 1 only if `P`. -/
def SetsPendOnlyIf (P : Prop) (s : State) (o : Res) : Prop :=
  ∀ u, o = .next u → u.ctx = .isr → s.irqPend = false → u.irqPend = true → P

namespace SetsPendOnlyIf

variable {P Q : Prop} {s t : State} {o : Res}

theorem mono (h : SetsPendOnlyIf P s o) (hi : P → Q) : SetsPendOnlyIf Q s o :=
  fun u ho hc h0 h1 => hi (h u ho hc h0 h1)

theorem forced (h : P) : SetsPendOnlyIf P s o :=
  fun _ _ _ _ _ => h

theorem fault (r : Fault) : SetsPendOnlyIf P s (.fault r) := by
  rintro _ ⟨⟩

/-- IRQ_PEND is as it was. -/
theorem next (h : t.irqPend = s.irqPend := by rfl) : SetsPendOnlyIf P s (.next t) := by
  rintro _ ⟨⟩ - h0 h1
  simp [← h, h1] at h0

/-- IRQ_PEND is 0. -/
theorem cleared (h : t.irqPend = false) : SetsPendOnlyIf P s (.next t) := by
  rintro _ ⟨⟩ - - h1
  simp [h] at h1

/-- The handler has returned. -/
theorem left (h : t.ctx = .normal) : SetsPendOnlyIf P s (.next t) := by
  rintro _ ⟨⟩ hc
  simp [h] at hc

/-- A step that may hold, when neither the access it waits for nor what follows writes IRQ_PEND. -/
theorem hold {f : Frame} {a : Option State} {go : State → State}
    (ha : ∀ u, a = some u → u.irqPend = s.irqPend) (hg : ∀ u, (go u).irqPend = u.irqPend) :
    SetsPendOnlyIf P s (orHold f s a go) := by
  cases a with
  | none => exact next
  | some u => exact next ((hg u).trans (ha u rfl))

/-- A step that holds until the slot takes its access. -/
theorem post {f : Frame} {op : SyncOp} {go : State → State}
    (hg : ∀ u, (go u).irqPend = u.irqPend := by exact fun _ => rfl) :
    SetsPendOnlyIf P s (orHold f s (postSync op s) go) :=
  hold (fun _ hu => by rw [(postSync_eq_some hu).2]) hg

/-- A step that holds until the slot is empty. -/
theorem await {f : Frame} {go : State → State}
    (hg : ∀ u, (go u).irqPend = u.irqPend := by exact fun _ => rfl) :
    SetsPendOnlyIf P s (orHold f s (awaitSync s) go) :=
  hold (fun _ hu => by rw [(awaitSync_eq_some hu).2]) hg

end SetsPendOnlyIf

section
variable {P : Prop} {s : State}

/-- An operation of the host, by its body at step 1 and at the call in flight. -/
theorem perform_setsPendOnlyIf {i : Instr} {a : Option Reason} {body : Frame → State → Res}
    (hs : SetsPendOnlyIf P s (body (Frame.start i) s))
    (hf : ∀ f, s.callFrame = some f → SetsPendOnlyIf P s (body f s)) :
    SetsPendOnlyIf P s (perform i a body s) := by
  intro u h
  obtain ⟨r, -, -, rfl⟩ | ⟨-, -, hb⟩ | ⟨f, -, hc, hb⟩ := perform_cases h
  · exact SetsPendOnlyIf.next (refuse_irqPend r s) _ rfl
  · exact hs u hb
  · exact hf f hc u hb

/-- In interrupt context a primitive is refused: the host may not issue it, and those of a test program do not
advance (30 R94, 10 R39). -/
theorem performPrimitive_of_isr {i : Instr} {body : Frame → State → Res} (hc : s.ctx = .isr)
    (hp : ∀ n, s.issuer ≠ .program n) : SetsPendOnlyIf P s (performPrimitive i body s) := by
  intro u h
  obtain ⟨-, -, rfl⟩ | ⟨-, hn, -⟩ | ⟨n, -, hi, -⟩ := performPrimitive_cases h
  · exact SetsPendOnlyIf.next (refuse_irqPend _ s) _ rfl
  · simp [hc] at hn
  · exact absurd hi (hp n)

/-! ### The bodies -/

/-- Step 7 of INIT clears IRQ_PEND, no other step writes it (43 R186). -/
theorem initStep_setsPendOnlyIf (f : Frame) : SetsPendOnlyIf P s (initStep f s) := by
  unfold initStep
  split
  case h_7 => exact .cleared rfl
  case h_8 | h_10 | h_12 | h_14 | h_16 | h_19 => exact .await
  case h_9 | h_11 | h_13 | h_18 => exact .post
  case h_15 =>
    split
    · exact .post
    · exact .next
  case h_22 => exact .fault _
  all_goals exact .next

/-- Step 4 of SET_TIMEOUT.T is the only one that sets IRQ_PEND (41 R141). -/
theorem setTimeoutTStep_setsPendOnlyIf (ticks : Word) (f : Frame) :
    SetsPendOnlyIf (f.k = 4 ∧ waitDistance s.cfg f.t f.c f.m < s.cfg.leadThreshold) s
      (setTimeoutTStep ticks f s) := by
  unfold setTimeoutTStep
  split
  case h_4 hk =>
    split
    · next hd => exact .forced ⟨hk, hd⟩
    · exact .next
  case h_1 => exact .next
  case h_2 | h_6 => exact .post
  case h_3 | h_5 => exact .await
  case h_7 => exact .fault _

theorem queryElapsedTStep_setsPendOnlyIf (f : Frame) : SetsPendOnlyIf P s (queryElapsedTStep f s) := by
  unfold queryElapsedTStep
  split
  · exact .next
  · exact .post
  · exact .await
  · exact .next
  · exact .fault _

theorem idleExitTStep_setsPendOnlyIf (f : Frame) : SetsPendOnlyIf P s (idleExitTStep f s) := by
  unfold idleExitTStep
  split
  · exact .next
  · exact .fault _

/-- Step 1 of SET_TIMEOUT.P is the only one that sets IRQ_PEND, for ticks 0 (42 R161). -/
theorem setTimeoutPStep_setsPendOnlyIf (ticks : Word) (f : Frame) :
    SetsPendOnlyIf (ticks = 0) s (setTimeoutPStep ticks f s) := by
  unfold setTimeoutPStep
  split
  case h_1 =>
    split
    · next h0 => exact .forced (ticksOf_eq_zero.1 h0)
    · exact .next
  case h_3 =>
    split
    · exact .next
    · exact .next
  case h_2 | h_4 => exact .next
  case h_5 => exact .fault _

theorem queryElapsedPStep_setsPendOnlyIf (f : Frame) : SetsPendOnlyIf P s (queryElapsedPStep f s) := by
  unfold queryElapsedPStep
  split
  · exact .next
  · exact .next
  · exact .fault _

theorem idleExitPStep_setsPendOnlyIf (f : Frame) : SetsPendOnlyIf P s (idleExitPStep f s) := by
  unfold idleExitPStep
  split
  · exact .next
  · exact .fault _

/-! ### ANNOUNCE, IRET and the handlers -/

theorem execAnnounce_setsPendOnlyIf (n : Word) : SetsPendOnlyIf P s (execAnnounce n s) := by
  unfold execAnnounce
  split
  · exact .next
  · split
    · exact .fault _
    · split
      · exact .next
      · exact .next
      · exact .fault _
  · exact .fault _

/-- The announcing step of a handler changes positions only, before ANNOUNCE performs its step 1. -/
theorem callAnnounce_setsPendOnlyIf (n : Word) (f : Frame) : SetsPendOnlyIf P s (callAnnounce n f s) :=
  execAnnounce_setsPendOnlyIf (s := { s with seqIsr := some f, seqAnn := some (Frame.start (.announce n)) }) n

/-- IRET tests the level as it leaves interrupt context (43 R185). -/
theorem execIret_setsPendOnlyIf : SetsPendOnlyIf P s (execIret s) := by
  unfold execIret
  split
  · exact .next
  · exact .next
  · exact .left rfl
  · exact .fault _

theorem isrTStep_setsPendOnlyIf (f : Frame) : SetsPendOnlyIf P s (isrTStep f s) := by
  unfold isrTStep
  split
  case h_3 =>
    split
    · exact .next
    · next u hu =>
      obtain ⟨-, rfl⟩ := postSync_eq_some hu
      exact .next
  case h_4 =>
    split
    · exact .next
    · next u hu =>
      obtain ⟨-, rfl⟩ := awaitSync_eq_some hu
      exact .next
  case h_6 => exact callAnnounce_setsPendOnlyIf _ _
  case h_8 =>
    split
    · exact callAnnounce_setsPendOnlyIf _ _
    · exact .next
  case h_9 => exact execIret_setsPendOnlyIf
  case h_10 => exact .fault _
  all_goals exact .next

theorem isrPStep_setsPendOnlyIf (f : Frame) : SetsPendOnlyIf P s (isrPStep f s) := by
  unfold isrPStep
  split
  case h_5 | h_7 => exact callAnnounce_setsPendOnlyIf _ _
  case h_8 => exact execIret_setsPendOnlyIf
  case h_9 => exact .fault _
  all_goals exact .next

theorem execIsrT_setsPendOnlyIf : SetsPendOnlyIf P s (execIsrT s) := by
  unfold execIsrT
  split
  · exact .next
  · split
    · exact .fault _
    · exact isrTStep_setsPendOnlyIf _
  · exact .fault _

theorem execIsrP_setsPendOnlyIf : SetsPendOnlyIf P s (execIsrP s) := by
  unfold execIsrP
  split
  · exact .next
  · split
    · exact .fault _
    · exact isrPStep_setsPendOnlyIf _
  · exact .fault _

/-! ### The calls that force the interrupt pending -/

/-- A call that the host issues is at step 1, so only one in flight can be at step 4. -/
theorem execSetTimeoutT_setsPendOnlyIf (ticks : Word) (b : Bool) :
    SetsPendOnlyIf (ForcePends (.setTimeoutT ticks b) s) s (execSetTimeoutT ticks b s) := by
  refine perform_setsPendOnlyIf ?_ fun f hf => ?_
  · exact (setTimeoutTStep_setsPendOnlyIf ticks _).mono fun ⟨hk, _⟩ => absurd hk (by simp [Frame.start])
  · exact (setTimeoutTStep_setsPendOnlyIf ticks f).mono fun ⟨hk, hd⟩ => .inl ⟨ticks, b, f, rfl, hf, hk, hd⟩

theorem execSetTimeoutP_setsPendOnlyIf (ticks : Word) (b : Bool) :
    SetsPendOnlyIf (ForcePends (.setTimeoutP ticks b) s) s (execSetTimeoutP ticks b s) := by
  have hb (f : Frame) : SetsPendOnlyIf (ForcePends (.setTimeoutP ticks b) s) s (setTimeoutPStep ticks f s) :=
    (setTimeoutPStep_setsPendOnlyIf ticks f).mono fun h0 => .inr ⟨b, by rw [h0]⟩
  exact perform_setsPendOnlyIf (hb _) fun f _ => hb f

/-! ### Every operation and every step -/

/-- In interrupt context, where no primitive of a test program advances, only a force-pending sets IRQ_PEND. -/
theorem exec_setsPendOnlyIf (i : Instr) (hc : s.ctx = .isr) (hp : ∀ n, s.issuer ≠ .program n) :
    SetsPendOnlyIf (ForcePends i s) s (exec i s) := by
  cases i with
  | setTimeoutT ticks b => exact execSetTimeoutT_setsPendOnlyIf ticks b
  | setTimeoutP ticks b => exact execSetTimeoutP_setsPendOnlyIf ticks b
  | init => exact perform_setsPendOnlyIf (initStep_setsPendOnlyIf _) fun f _ => initStep_setsPendOnlyIf f
  | queryElapsedT =>
    exact perform_setsPendOnlyIf (queryElapsedTStep_setsPendOnlyIf _)
      fun f _ => queryElapsedTStep_setsPendOnlyIf f
  | queryElapsedP =>
    exact perform_setsPendOnlyIf (queryElapsedPStep_setsPendOnlyIf _)
      fun f _ => queryElapsedPStep_setsPendOnlyIf f
  | idleExitT =>
    exact perform_setsPendOnlyIf (idleExitTStep_setsPendOnlyIf _)
      fun f _ => idleExitTStep_setsPendOnlyIf f
  | idleExitP =>
    exact perform_setsPendOnlyIf (idleExitPStep_setsPendOnlyIf _)
      fun f _ => idleExitPStep_setsPendOnlyIf f
  | isrT => exact execIsrT_setsPendOnlyIf
  | isrP => exact execIsrP_setsPendOnlyIf
  | announce n => exact execAnnounce_setsPendOnlyIf n
  | iret => exact execIret_setsPendOnlyIf
  | _ => exact performPrimitive_of_isr hc hp

end

/-- The state of the turn has the same calls in flight. -/
@[simp] theorem nextTurn_callFrame (s : State) : (nextTurn s).2.callFrame = s.callFrame := by
  simp [State.callFrame]

/-- The state in which the turn's operation is performed differs in the schedule, the free-value counter and
the issuer only. -/
theorem forcePends_of_issuer {i : Instr} {s : State} {x : Issuer}
    (h : ForcePends i { (nextTurn s).2 with issuer := x }) : ForcePends i s := by
  obtain ⟨t, b, f, rfl, hf, hk, hd⟩ | ⟨b, rfl⟩ := h
  · exact .inl ⟨t, b, f, rfl, (nextTurn_callFrame s).symm.trans hf, hk, by simpa using hd⟩
  · exact .inr ⟨b, rfl⟩

/-- In interrupt context the agents that act on their own leave IRQ_PEND as it is. -/
theorem agents_irqPend {s : State} (hc : s.ctx = .isr) :
    (counterAgent s).irqPend = s.irqPend ∧ (syncUnit s).irqPend = s.irqPend ∧
      (interruptEntry s).irqPend = s.irqPend ∧ (hostReturns s).irqPend = s.irqPend := by
  refine ⟨?_, ?_, ?_, ?_⟩
  · obtain ⟨-, e⟩ | ⟨-, -, e⟩ | ⟨-, -, -, e⟩ | ⟨-, -, -, e⟩ := counterAgent_cases s
    all_goals simp [e, countUnspecified, countFreeRun, countMatchClear]
  · obtain ⟨-, e⟩ | ⟨_, -, e⟩ | ⟨_, -, -, e⟩ | ⟨_, -, -, e⟩ | ⟨-, e⟩ := syncUnit_cases s
    all_goals simp [e]
  · obtain ⟨he, -⟩ | ⟨-, e⟩ := interruptEntry_cases s
    · simp [entryEnabled_iff, hc] at he
    · rw [e]
  · obtain ⟨-, -, e⟩ | e := hostReturns_cases s
    all_goals rw [e]

/-- Between two states in interrupt context, IRQ_PEND goes from 0 to 1 only as the step performs a
force-pending. -/
theorem step_pends_in_isr {s s' : State} (hc : s.ctx = .isr) (h : step s = .next s') (hc' : s'.ctx = .isr)
    (h0 : s.irqPend = false) (h1 : s'.irqPend = true) : ∃ i, s.performed = some i ∧ ForcePends i s := by
  have hn : (nextTurn s).2.ctx = .isr := by simpa using hc
  obtain ⟨-, ⟨-, rfl⟩ | ⟨-, u, rfl, hu⟩⟩ := step_turns h
  · simp [h0] at h1
  have hl : latch u = u := latch_of_isr hc'
  rw [hl] at hc' h1
  have unchanged (hp : u.irqPend = (nextTurn s).2.irqPend) : ∃ i, s.performed = some i ∧ ForcePends i s := by
    simp [hp, h0] at h1
  have performs {i : Instr} {x : Issuer} (hx : ∀ n, x ≠ .program n) (hi : s.performed = some i)
      (he : exec i { (nextTurn s).2 with issuer := x } = .next u) :
      ∃ i, s.performed = some i ∧ ForcePends i s :=
    have hf := exec_setsPendOnlyIf (s := { (nextTurn s).2 with issuer := x }) i hn hx
    ⟨i, hi, forcePends_of_issuer (hf u he hc' (by simpa using h0) h1)⟩
  obtain ⟨hcount, hsync, henter, hret⟩ := agents_irqPend hn
  obtain ⟨w, e, -, -, -, rfl⟩ | ⟨w, i, -, -, hi, he⟩ | ⟨i, -, -, hi, he⟩ | ⟨-, -, -, rfl⟩ |
    ⟨n, i, -, hop, -, -⟩ | ⟨n, -, -, -, rfl⟩ | ⟨-, -, rfl⟩ | ⟨-, -, rfl⟩ | ⟨-, -, rfl⟩ |
    ⟨-, -, rfl⟩ := hu
  · exact unchanged rfl
  · exact performs (by simp) hi he
  · exact performs (by simp) hi he
  · exact unchanged rfl
  · simp [State.programOp, hc] at hop
  · exact unchanged rfl
  · exact unchanged hcount
  · exact unchanged hsync
  · exact unchanged henter
  · exact unchanged hret

/-- Settles O23: every turn ends with the latch, and in interrupt context only the operations write IRQ_PEND. -/
theorem levelLatchesThePendingBit : Obligations.LevelLatchesThePendingBit := by
  refine ⟨fun s s' hr h hc hl => ?_, fun s => ?_, fun _ => latch_of_isr, fun s s' hc h hc' h0 h1 => ?_,
    fun s b h => ?_, fun s ticks b f h hd => ?_, fun _ _ => rfl⟩
  · obtain ⟨u, rfl⟩ := step_latched hr h
    exact latch_irqPend_of_level hc ((level_eq u).trans hl)
  · rw [returnFromInterrupt_irqPend, level_eq]
  · obtain ⟨i, hi, ⟨t, b, f, rfl, hf, hk, hd⟩ | ⟨b, rfl⟩⟩ := step_pends_in_isr hc h hc' h0 h1
    · exact .inl ⟨t, b, f, hi, hf, hk, hd⟩
    · exact .inr ⟨b, hi⟩
  · exact ⟨_, exec_setTimeoutP_zero b h, rfl, rfl⟩
  · exact ⟨_, exec_setTimeoutT_below ticks b h hd, rfl, rfl⟩

end Sys2Proof.Machine
end

section
/-! PROOF. The primitives (40): O30 to O39, each performed by a test program in normal context (30 R94). -/

namespace Sys2Proof

/-- A flag set's word as a sum (30 R88). -/
theorem Flags.toWord_eq_add (f : Flags) :
    f.toWord = (if f.cmp then 0x01 else 0) + (if f.ovf then 0x80 else 0) := by
  rcases f with ⟨c, o⟩
  cases c <;> cases o <;> rfl

/-- The fields of a control value stand in their bits of its word (30 R87). -/
theorem Ctrl.toWord_fields (c : Ctrl) :
    c.toWord.getLsbD 0 = c.swrst ∧ c.toWord.getLsbD 1 = c.enable ∧
      c.toWord.extractLsb' 2 2 = c.mode.toBits ∧ c.toWord.extractLsb' 4 3 = 0 ∧
      c.toWord.getLsbD 7 = c.matchclr ∧ c.toWord.extractLsb' 8 4 = c.prescaler ∧
      c.toWord.extractLsb' 12 20 = 0 := by
  rcases c with ⟨s, e, m, mc, p⟩
  cases s <;> cases e <;> cases m <;> cases mc <;> revert p <;> decide

end Sys2Proof

namespace Sys2Proof.Machine

/-! ### A primitive performed at once -/

/-- A primitive of one step, issued in normal context, answers its effect. -/
theorem oneStep_issued {i : Instr} {eff : State → State} {s : State} (h : s.AcceptsPrimitive)
    (hi : (eff s).issuer = s.issuer := by rfl) : performPrimitive i (oneStep eff) s = .next (eff s) := by
  rw [performPrimitive_admitted h.1 h.2]
  exact congrArg Host.Outcome.next (endPrim_host _ (hi.trans h.1))

/-- Settles O37: each primitive is performed at once. -/
theorem controllerPrimitivesSetTheirBit : Obligations.ControllerPrimitivesSetTheirBit :=
  fun _ h => ⟨oneStep_issued h, oneStep_issued h, oneStep_issued h, oneStep_issued h⟩

/-- Settles O39: ST_VAR is performed at once. -/
theorem stVarWritesTheVariable : Obligations.StVarWritesTheVariable :=
  fun _ _ h => ⟨oneStep_issued h, oneStep_issued h, oneStep_issued h⟩

/-- Settles O35: the second write finds the bits as the first one left them. -/
theorem flagWritesActOnTheGivenBits : Obligations.FlagWritesActOnTheGivenBits := by
  intro s f h
  have hflag : exec (.wrIntflag f) s = .next { s with intflag := s.intflag.diff f } := oneStep_issued h
  have hset : exec (.wrIntenset f) s = .next { s with inten := s.inten.union f } := oneStep_issued h
  have hclr : exec (.wrIntenclr f) s = .next { s with inten := s.inten.diff f } := oneStep_issued h
  have diff_diff (a : Flags) : (a.diff f).diff f = a.diff f := by simp [Flags.diff]
  have union_union (a : Flags) : (a.union f).union f = a.union f := by simp [Flags.union]
  refine ⟨hflag, hset, hclr, fun t ht => ?_, fun t ht => ?_, fun t ht => ?_⟩
  · obtain rfl := Host.Outcome.next.inj (hflag.symm.trans ht)
    refine (oneStep_issued (s := { s with intflag := s.intflag.diff f }) h).trans ?_
    simp [diff_diff]
  · obtain rfl := Host.Outcome.next.inj (hset.symm.trans ht)
    refine (oneStep_issued (s := { s with inten := s.inten.union f }) h).trans ?_
    simp [union_union]
  · obtain rfl := Host.Outcome.next.inj (hclr.symm.trans ht)
    refine (oneStep_issued (s := { s with inten := s.inten.diff f }) h).trans ?_
    simp [diff_diff]

/-! ### The mask -/

theorem keyOk_iff {key : Word} : keyOk key = true ↔ key.toNat ≤ 1 := by
  simp only [keyOk, Bool.or_eq_true, beq_iff_eq]
  constructor
  · rintro (rfl | rfl) <;> decide
  · intro h
    obtain h | h := Nat.le_one_iff_eq_zero_or_eq_one.1 h
    · exact .inl (BitVec.eq_of_toNat_eq h)
    · exact .inr (BitVec.eq_of_toNat_eq h)

/-- IRQ_UNLOCK with an admitted key restores the mask that the key holds. -/
theorem exec_irqUnlock {key : Word} {s : State} (h : s.AcceptsPrimitive) (hk : keyOk key = true) :
    exec (.irqUnlock key) s = .next (unlockWith key s) := by
  have hb : irqUnlockStep key = oneStep (unlockWith key) := by
    funext f s
    simp [irqUnlockStep, hk]
  change performPrimitive _ (irqUnlockStep key) s = _
  rw [hb]
  exact oneStep_issued h

theorem exec_irqLock {s : State} (h : s.AcceptsPrimitive) :
    exec .irqLock s = .next { s with dest := s.lockKey, irqLocked := true } :=
  oneStep_issued h

/-- The key of a lock is admitted, and holds the mask as it was. -/
theorem lockKey_restores (s : State) : keyOk s.lockKey = true ∧ s.lockKey.getLsbD 0 = s.irqLocked := by
  unfold State.lockKey
  cases s.irqLocked <;> exact ⟨rfl, rfl⟩

/-- Settles O38: the key that IRQ_LOCK returns is one that IRQ_UNLOCK admits. -/
theorem maskIsSavedAndRestored : Obligations.MaskIsSavedAndRestored := by
  intro s h
  refine ⟨exec_irqLock h, exec_irqUnlock h rfl, exec_irqUnlock h rfl, fun key hk => ?_, ?_⟩
  · have hn : keyOk key = false := by simpa [← keyOk_iff] using Nat.not_le.2 hk
    change performPrimitive _ (irqUnlockStep key) s = _
    rw [performPrimitive_admitted h.1 h.2]
    simp [irqUnlockStep, hn, refuse]
  · obtain ⟨hk, hl⟩ := lockKey_restores s
    exact ⟨_, _, exec_irqLock h, exec_irqUnlock (s := { s with dest := s.lockKey, irqLocked := true }) h hk, hl⟩

/-! ### A primitive that waits for the slot -/

/-- A primitive's access may start when the slot is free, and not otherwise. -/
theorem inOrder_of_not_free {op : SyncOp} {s : State} (h : ¬ s.SlotFree) :
    s.inOrder (postSync op s) = none ∧ s.inOrder (awaitSync s) = none := by
  by_cases hs : s.syncOp = .none
  · have hw : s.primWaits = true := by simpa [State.SlotFree, hs] using h
    exact ⟨inOrder_of_waiting _ hw, inOrder_of_waiting _ hw⟩
  · rw [postSync_of_busy hs, awaitSync_of_busy hs]
    simp [State.inOrder]

theorem inOrder_of_free {op : SyncOp} {s : State} (h : s.SlotFree) :
    s.inOrder (postSync op s) = some { s with syncOp := op, syncbusy := true } ∧
      s.inOrder (awaitSync s) = some s := by
  rw [inOrder_of_first _ h.2, inOrder_of_first _ h.2, postSync_of_empty h.1, awaitSync_of_empty h.1]
  exact ⟨rfl, rfl⟩

/-- While its access may not start the primitive stays at its step 1. -/
theorem waitStep_held {eff : State → Option State} {f : Frame} {s : State} (hk : f.k = 1)
    (he : s.inOrder (eff s) = none) : waitStep eff f s = .next (s.storePrim f) := by
  simp [waitStep, hk, he]

theorem waitStep_done {eff : State → Option State} {f : Frame} {s u : State} (hk : f.k = 1)
    (he : s.inOrder (eff s) = some u) : waitStep eff f s = .next u.endPrim := by
  simp [waitStep, hk, he]

/-- The step of WR_CTRL for an admitted value is the posting of the write. -/
theorem wrCtrlStep_of_modelled {c : Ctrl} (hc : c.modelled = true) :
    wrCtrlStep c = waitStep (postSync (.writeCtrl c)) := by
  funext f s
  simp [wrCtrlStep, hc]

theorem modelled_iff {c : Ctrl} : c.modelled = true ↔ c.mode = .count32 ∧ c.prescaler = 0 := by
  simp [Ctrl.modelled]

theorem exec_wrCtrl {c : Ctrl} (hc : c.modelled = true) (s : State) :
    exec (.wrCtrl c) s = performPrimitive (.wrCtrl c) (waitStep (postSync (.writeCtrl c))) s := by
  rw [← wrCtrlStep_of_modelled hc]
  rfl

theorem storePrim_host {s : State} {f : Frame} (h : s.issuer = .host) :
    s.storePrim f = { s with prims := s.prims ++ [f] } := by
  simp [State.storePrim, h]

theorem storePrim_program {s : State} {n : Nat} {f : Frame} (h : s.issuer = .program n) :
    s.storePrim f = { s with prims := s.prims.set n f } := by
  simp [State.storePrim, h]

theorem endPrim_program {s : State} {n : Nat} (h : s.issuer = .program n) :
    s.endPrim = { s with prims := s.prims.eraseIdx n } := by
  simp [State.endPrim, h]

section
variable {i : Instr} {s u : State} {eff : State → Option State} {n : Nat} {f : Frame}

/-- Issued when its access may start, a primitive of one step is performed at once. -/
theorem waitStep_issued (h : s.AcceptsPrimitive) (he : s.inOrder (eff s) = some u)
    (hi : u.issuer = s.issuer := by rfl) : performPrimitive i (waitStep eff) s = .next u := by
  rw [performPrimitive_admitted h.1 h.2, waitStep_done rfl he, endPrim_host u (hi.trans h.1)]

/-- Issued when its access may not start, it joins the primitives in flight. -/
theorem waitStep_issued_held (h : s.AcceptsPrimitive) (he : s.inOrder (eff s) = none) :
    performPrimitive i (waitStep eff) s = .next { s with prims := s.prims ++ [Frame.start i] } := by
  rw [performPrimitive_admitted h.1 h.2, waitStep_held rfl he, storePrim_host h.1]

/-- In flight, it stays as it is while its access may not start. -/
theorem waitStep_program_held (h : s.PrimitiveAt n f 1) (he : s.inOrder (eff s) = none) :
    performPrimitive i (waitStep eff) s = .next s := by
  obtain ⟨hi, hf, hk⟩ := h
  rw [performPrimitive_program hi hf, waitStep_held hk he, storePrim_same s n f hi hf]

/-- In flight, it is performed and leaves the primitives in flight once its access may start. -/
theorem waitStep_program_done (h : s.PrimitiveAt n f 1) (he : s.inOrder (eff s) = some u)
    (hi : u.issuer = s.issuer := by rfl) :
    performPrimitive i (waitStep eff) s = .next { u with prims := u.prims.eraseIdx n } := by
  obtain ⟨hp, hf, hk⟩ := h
  rw [performPrimitive_program hp hf, waitStep_done hk he, endPrim_program (hi.trans hp)]

end

/-- Settles O30: with the slot free each access is performed as it is issued. -/
theorem synchronisedAccessesStartOnAnEmptySlot : Obligations.SynchronisedAccessesStartOnAnEmptySlot := by
  intro s h hs
  refine ⟨waitStep_issued h (inOrder_of_free (op := .none) hs).2, fun v => waitStep_issued h (inOrder_of_free hs).1,
    fun c hm hp => ?_⟩
  rw [exec_wrCtrl (modelled_iff.2 ⟨hm, hp⟩)]
  exact waitStep_issued h (inOrder_of_free hs).1

/-! ### RD_COUNT -/

/-- RD_COUNT's step 1 holds while its access may not start. -/
theorem rdCountStep_held {f : Frame} {s : State} (hk : f.k = 1) (hs : ¬ s.SlotFree) :
    rdCountStep f s = .next (s.storePrim f) := by
  simp [rdCountStep, hk, (inOrder_of_not_free hs).1]

/-- RD_COUNT's step 1 posts the capture. -/
theorem rdCountStep_posts {f : Frame} {s : State} (hk : f.k = 1) (hs : s.SlotFree) :
    rdCountStep f s =
      .next (State.storePrim { s with syncOp := .readCount, syncbusy := true } { f with k := 2 }) := by
  simp [rdCountStep, hk, (inOrder_of_free hs).1]

theorem exec_rdCount_issued {s : State} (h : s.AcceptsPrimitive) (hs : s.SlotFree) :
    exec .rdCount s = .next { s with
      syncOp := .readCount, syncbusy := true, prims := s.prims ++ [{ Frame.start .rdCount with k := 2 }] } := by
  change performPrimitive _ rdCountStep s = _
  rw [performPrimitive_admitted h.1 h.2, rdCountStep_posts rfl hs]
  exact congrArg Host.Outcome.next (storePrim_host h.1)

/-- Settles O31: what may not start joins the primitives in flight, and stays there until it may. -/
theorem secondSynchronisedAccessHolds : Obligations.SecondSynchronisedAccessHolds := by
  refine ⟨fun s h hs => ?_, fun s n f h hs => ?_, fun s n f h hs => ?_⟩
  · refine ⟨fun v => waitStep_issued_held h (inOrder_of_not_free hs).1, fun c hc => ?_, ?_,
      waitStep_issued_held h (inOrder_of_not_free (op := .none) hs).2⟩
    · rw [exec_wrCtrl hc]
      exact waitStep_issued_held h (inOrder_of_not_free hs).1
    · change performPrimitive _ rdCountStep s = _
      rw [performPrimitive_admitted h.1 h.2, rdCountStep_held rfl hs, storePrim_host h.1]
  · refine ⟨fun v => waitStep_program_held h (inOrder_of_not_free hs).1, fun c hc => ?_, ?_,
      waitStep_program_held h (inOrder_of_not_free (op := .none) hs).2⟩
    · rw [exec_wrCtrl hc]
      exact waitStep_program_held h (inOrder_of_not_free hs).1
    · obtain ⟨hi, hf, hk⟩ := h
      change performPrimitive _ rdCountStep s = _
      rw [performPrimitive_program hi hf, rdCountStep_held hk hs, storePrim_same s n f hi hf]
  · refine ⟨fun v => waitStep_program_done h (inOrder_of_free hs).1, fun c hc => ?_,
      waitStep_program_done h (inOrder_of_free (op := .none) hs).2⟩
    rw [exec_wrCtrl hc]
    exact waitStep_program_done h (inOrder_of_free hs).1

/-- Settles O32: step 1 posts the capture, step 2 holds until it has landed. -/
theorem rdCountReturnsTheCapture : Obligations.RdCountReturnsTheCapture := by
  refine ⟨fun s => exec_rdCount_issued, fun s n f ⟨hi, hf, hk⟩ hs => ?_, fun s n f ⟨hi, hf, hk⟩ => ?_⟩
  · change performPrimitive _ rdCountStep s = _
    rw [performPrimitive_program hi hf, rdCountStep_posts hk hs]
    exact congrArg Host.Outcome.next (storePrim_program hi)
  · change (_ → performPrimitive _ rdCountStep s = _) ∧ (_ → performPrimitive _ rdCountStep s = _)
    rw [performPrimitive_program hi hf]
    refine ⟨fun hs => ?_, fun hs => ?_⟩
    · simp [rdCountStep, hk, awaitSync_of_busy hs, storePrim_same s n f hi hf]
    · simp [rdCountStep, hk, awaitSync_of_empty hs, State.endPrim, hi]

/-! ### The reads -/

/-- Settles O33: a read is performed at once, also beside an RD_COUNT in flight. -/
theorem immediateReadsReturnTheRegister : Obligations.ImmediateReadsReturnTheRegister := by
  refine ⟨fun s h => ?_, fun s h hs => ?_⟩
  · have hflag : exec .rdIntflag s = .next { s with dest := s.intflag.toWord } := oneStep_issued h
    have hen : exec .rdInten s = .next { s with dest := s.inten.toWord } := oneStep_issued h
    rw [Flags.toWord_eq_add] at hflag hen
    exact ⟨oneStep_issued h, oneStep_issued h, hflag, hen, oneStep_issued h, oneStep_issued h,
      oneStep_issued h⟩
  · exact ⟨_, _, exec_rdCount_issued h hs, oneStep_issued h, rfl, rfl, rfl⟩

/-- What RD_CTRL shows is the landed CTRL, but for SWRST (40 R121). -/
theorem ctrlView_eq (s : State) : ∃ b, s.ctrlView = { s.ctrl with swrst := b } ∧
    (b = true ↔ s.ctrl.swrst = true ∨ ∃ c, s.syncOp = .writeCtrl c ∧ c.swrst = true) := by
  unfold State.ctrlView
  split
  · next c hc => exact ⟨_, rfl, by simp [hc]⟩
  · next hc => exact ⟨_, rfl, by simpa using fun c h _ => absurd h (hc c)⟩

/-- Settles O34: the word is that of the landed CTRL with SWRST as the slot says. -/
theorem rdCtrlReturnsTheLandedControl : Obligations.RdCtrlReturnsTheLandedControl := by
  intro s h
  obtain ⟨b, hv, hb⟩ := ctrlView_eq s
  obtain ⟨h0, h1, h2, h4, h7, h8, h12⟩ := Ctrl.toWord_fields s.ctrlView
  refine ⟨s.ctrlView.toWord, oneStep_issued h, ?_, ?_, ?_, h4, ?_, ?_, h12⟩
  · rw [h0, hv]
    exact hb
  · rw [h1, hv]
  · rw [h2, hv]
    cases s.ctrl.mode <;> rfl
  · rw [h7, hv]
  · rw [h8, hv]

/-- Settles O36: the step of WR_CTRL tests the value first. -/
theorem unmodelledControlIsRefused : Obligations.UnmodelledControlIsRefused := by
  intro s c h hc
  have hm : c.modelled = false := by
    rw [← Bool.not_eq_true, modelled_iff]
    tauto
  change performPrimitive _ (wrCtrlStep c) s = _
  rw [performPrimitive_admitted h.1 h.2]
  simp [wrCtrlStep, hm, refuse]

end Sys2Proof.Machine
end

section
/-! PROOF. The operations of several steps, step by step, and the refusals of a call: O40 to O45, O47 to O49, O53 to
O55, O57 and O59. -/

namespace Sys2Proof.Machine

/-! ### Refusals on issue (30 R93, R94; 10 R45; 60 R215) -/

section
variable {m : Mode} {s : State}

theorem admitCall_of_otherMode (h : s.cfg.mode ≠ m) : admitCall m s = some .wrongMode := by
  simp [admitCall, h]

theorem admitCall_outside_callback (h : s.cfg.mode = m) (hc : s.ctx = .isr) (ho : s.callbackOpen = false) :
    admitCall m s = some .wrongIssuer := by
  simp [admitCall, h, hc, ho]

theorem admitCall_before_init (h : s.cfg.mode = m) (hc : s.ctx = .normal) (hi : s.inited = false) :
    admitCall m s = some .notInited := by
  simp [admitCall, h, hc, hi]

theorem admitCall_beside_call (h : s.cfg.mode = m) (hc : s.ctx = .normal) (hi : s.inited = true)
    (hn : s.seqNormal ≠ none) : admitCall m s = some .concurrentCall := by
  simp [admitCall, h, hc, hi, State.callFrame, Option.isSome_iff_ne_none, hn]

/-- Before INIT has ended no call is admitted, whatever the first reason is. -/
theorem admitCall_of_not_inited (hi : s.inited = false) : ∃ r, admitCall m s = some r := by
  rw [← Option.ne_none_iff_exists']
  intro h
  simp [(admitCall_eq_none.1 h).2.1] at hi

end

/-- The calls of a TICKLESS build are performed on admission as such. -/
theorem exec_ticklessCall {t : Word} {b : Bool} {i : Instr}
    (h : i ∈ [.setTimeoutT t b, .queryElapsedT, .idleExitT]) :
    ∃ body, ∀ s, exec i s = perform i (admitCall .tickless s) body s := by
  simp only [List.mem_cons, List.not_mem_nil, or_false] at h
  obtain rfl | rfl | rfl := h
  · exact ⟨_, fun _ => rfl⟩
  · exact ⟨_, fun _ => rfl⟩
  · exact ⟨_, fun _ => rfl⟩

/-- The calls of a PERIODIC build are performed on admission as such. -/
theorem exec_periodicCall {t : Word} {b : Bool} {i : Instr}
    (h : i ∈ [.setTimeoutP t b, .queryElapsedP, .idleExitP]) :
    ∃ body, ∀ s, exec i s = perform i (admitCall .periodic s) body s := by
  simp only [List.mem_cons, List.not_mem_nil, or_false] at h
  obtain rfl | rfl | rfl := h
  · exact ⟨_, fun _ => rfl⟩
  · exact ⟨_, fun _ => rfl⟩
  · exact ⟨_, fun _ => rfl⟩

section
variable {s : State} {r : Reason} {t : Word} {b : Bool} {i : Instr}

theorem exec_ticklessCall_refused (hs : s.issuer = .host) (ha : admitCall .tickless s = some r)
    (h : i ∈ [.setTimeoutT t b, .queryElapsedT, .idleExitT]) : exec i s = .next (refuse r s) := by
  obtain ⟨body, he⟩ := exec_ticklessCall h
  rw [he, ha, perform_refused hs]

theorem exec_periodicCall_refused (hs : s.issuer = .host) (ha : admitCall .periodic s = some r)
    (h : i ∈ [.setTimeoutP t b, .queryElapsedP, .idleExitP]) : exec i s = .next (refuse r s) := by
  obtain ⟨body, he⟩ := exec_periodicCall h
  rw [he, ha, perform_refused hs]

/-- The handler's operations are refused to the host (30 R94). -/
theorem exec_handlerOp_refused {n : Word} (hs : s.issuer = .host)
    (h : i ∈ [.isrT, .isrP, .announce n, .iret]) : exec i s = .next (refuse .wrongIssuer s) := by
  simp only [List.mem_cons, List.not_mem_nil, or_false] at h
  obtain rfl | rfl | rfl | rfl := h
  · simp [exec, execIsrT, hs]
  · simp [exec, execIsrP, hs]
  · simp [exec, execAnnounce, hs]
  · simp [exec, execIret, hs]

/-- A primitive is performed by `performPrimitive`. -/
theorem exec_primitive (h : roleOf i = .primitive) :
    ∃ body, ∀ s, exec i s = performPrimitive i body s := by
  cases i with
  | init | setTimeoutT | setTimeoutP | queryElapsedT | queryElapsedP | idleExitT | idleExitP
  | isrT | isrP | announce | iret => cases h
  | _ => exact ⟨_, fun _ => rfl⟩

end

/-- Settles O40: the mode is tried first. -/
theorem otherModeIsRefused : Obligations.OtherModeIsRefused := by
  intro s t b hs
  refine ⟨fun hm i hi => ?_, fun hm i hi => ?_, fun i hi => ⟨.wrongIssuer, ?_⟩⟩
  · exact exec_periodicCall_refused hs (admitCall_of_otherMode (by simp [hm])) hi
  · exact exec_ticklessCall_refused hs (admitCall_of_otherMode (by simp [hm])) hi
  · exact exec_handlerOp_refused (n := 0) hs (by simp only [List.mem_cons] at hi ⊢; tauto)

/-- Settles O41: each kind of operation has its own issuer. -/
theorem wrongIssuerIsRefused : Obligations.WrongIssuerIsRefused := by
  intro s n t b hs
  refine ⟨fun i hi => exec_handlerOp_refused hs hi, fun hc i hi => ?_,
    fun hc ho => ⟨fun hm i hi => ?_, fun hm i hi => ?_⟩⟩
  · obtain ⟨body, he⟩ := exec_primitive hi
    rw [he]
    simp [performPrimitive, admitPrimitive, hs, hc, refuse]
  · exact exec_ticklessCall_refused hs (admitCall_outside_callback hm hc ho) hi
  · exact exec_periodicCall_refused hs (admitCall_outside_callback hm hc ho) hi

/-- Settles O43: in the callback it is the callback's own call that counts. -/
theorem concurrentCallIsRefused : Obligations.ConcurrentCallIsRefused := by
  intro s t b hs hi
  refine ⟨fun hc hn => ⟨fun hm i h => ?_, fun hm i h => ?_⟩, fun hc ho hn => ?_⟩
  · exact exec_ticklessCall_refused hs (admitCall_beside_call hm hc hi hn) h
  · exact exec_periodicCall_refused hs (admitCall_beside_call hm hc hi hn) h
  have kept (o : Option Frame) : (s.setCall o).seqNormal = s.seqNormal := by simp [hc]
  refine ⟨fun hm i h => ?_, fun hm i h => ?_⟩
  · have ha : admitCall .tickless s = none := admitCall_of_acceptsCall ⟨hs, hm, hi, .inr ⟨hc, ho, hn⟩⟩
    simp only [List.mem_cons, List.not_mem_nil, or_false] at h
    obtain rfl | rfl | rfl := h
    all_goals
      simp only [exec, execSetTimeoutT, execQueryElapsedT, execIdleExitT, ha, perform_admitted hs]
      exact ⟨_, rfl, rfl, kept _⟩
  · have ha : admitCall .periodic s = none := admitCall_of_acceptsCall ⟨hs, hm, hi, .inr ⟨hc, ho, hn⟩⟩
    simp only [List.mem_cons, List.not_mem_nil, or_false] at h
    obtain rfl | rfl | rfl := h
    all_goals simp only [exec, execSetTimeoutP, execQueryElapsedP, execIdleExitP, ha, perform_admitted hs]
    · simp only [setTimeoutPStep, Frame.start]
      split <;> exact ⟨_, rfl, rfl, kept _⟩
    · exact ⟨_, rfl, rfl, kept _⟩
    · exact ⟨_, rfl, rfl, kept _⟩

/-! ### INIT -/

theorem setCall_of_normal {s : State} {o : Option Frame} (h : s.ctx = .normal) :
    s.setCall o = { s with seqNormal := o } := by
  simp [State.setCall, h]

/-- A step of a call in flight that is asked for is a step of its body. -/
theorem exec_init_sequencer {s : State} {f : Frame} (h : s.issuer = .sequencer) (hf : s.callFrame = some f) :
    exec .init s = initStep f s :=
  perform_sequencer h hf

theorem exec_init_twice {s : State} (h : s.issuer = .host) (hi : s.inited = true) :
    exec .init s = .next (refuse .initTwice s) := by
  have ha : admitInit s = some .initTwice := by simp [admitInit, hi]
  change perform _ (admitInit s) _ s = _
  rw [ha, perform_refused h]

/-- INIT issued in idle normal context performs its step 1. -/
theorem exec_init_idle {s : State} (h : s.Idle) (hi : s.inited = false) :
    exec .init s =
      .next { s with lastMark := 0, seqNormal := some { Frame.start .init with k := 2 } } := by
  obtain ⟨hs, hc, hn⟩ := h
  change perform _ (admitInit s) _ s = _
  rw [admitInit_idle hi hc hn, perform_admitted hs]
  exact congrArg Host.Outcome.next (setCall_of_normal (s := { s with lastMark := 0 }) hc)

/-- Settles O42: `admitInit` and `admitCall` test INITED, and step 21 sets it. -/
theorem initComesFirstAndOnce : Obligations.InitComesFirstAndOnce := by
  refine ⟨fun _ => rfl, fun s f ⟨hs, hf, hk⟩ => ?_, fun s hs hi => exec_init_twice hs hi,
    fun s t b hs hi => ⟨fun i h => ?_, fun hc => ⟨fun hm i h => ?_, fun hm i h => ?_⟩⟩⟩
  · rw [exec_init_sequencer hs hf]
    exact ⟨({ s with inited := true } : State).endCall .init .ok, by simp [initStep, hk], rfl⟩
  · obtain ⟨rt, ht⟩ := admitCall_of_not_inited (m := .tickless) hi
    obtain ⟨rp, hp⟩ := admitCall_of_not_inited (m := .periodic) hi
    simp only [List.mem_cons, List.not_mem_nil, or_false] at h
    obtain rfl | rfl | rfl | rfl | rfl | rfl := h
    · exact ⟨rt, exec_ticklessCall_refused (t := t) (b := b) hs ht (by simp)⟩
    · exact ⟨rp, exec_periodicCall_refused (t := t) (b := b) hs hp (by simp)⟩
    · exact ⟨rt, exec_ticklessCall_refused (t := t) (b := b) hs ht (by simp)⟩
    · exact ⟨rp, exec_periodicCall_refused (t := t) (b := b) hs hp (by simp)⟩
    · exact ⟨rt, exec_ticklessCall_refused (t := t) (b := b) hs ht (by simp)⟩
    · exact ⟨rp, exec_periodicCall_refused (t := t) (b := b) hs hp (by simp)⟩
  · exact exec_ticklessCall_refused hs (admitCall_before_init hm hc hi) h
  · exact exec_periodicCall_refused hs (admitCall_before_init hm hc hi) h

/-- A step that may hold leaves the machine as it is while it holds, its frame being there already. -/
theorem orHold_held {f : Frame} {s : State} {go : State → State} (hf : s.callFrame = some f) :
    orHold f s none go = .next s := by
  rw [orHold_none, setCall_callFrame s _ hf]

/-- A step that posts an access goes on as it finds the slot empty. -/
theorem orHold_posts {op : SyncOp} {f : Frame} {s : State} {go : State → State} (hs : s.syncOp = .none) :
    orHold f s (postSync op s) go = .next (go { s with syncOp := op, syncbusy := true }) := by
  rw [postSync_of_empty hs, orHold_some]

/-- A step that awaits the slot goes on as it finds it empty. -/
theorem orHold_goes {f : Frame} {s : State} {go : State → State} (hs : s.syncOp = .none) :
    orHold f s (awaitSync s) go = .next (go s) := by
  rw [awaitSync_of_empty hs, orHold_some]

/-- The steps of INIT that access or await the slot hold while it is occupied (43 R186). -/
theorem initStep_held {f : Frame} {s : State} (hf : s.callFrame = some f) (hs : s.syncOp ≠ .none)
    (hk : f.k ∈ [8, 9, 10, 11, 12, 13, 14, 16, 18, 19] ∨ (f.k = 15 ∧ s.cfg.mode = .periodic)) :
    initStep f s = .next s := by
  simp only [List.mem_cons, List.not_mem_nil, or_false] at hk
  obtain hk | ⟨hk, hm⟩ := hk
  · obtain hk | hk | hk | hk | hk | hk | hk | hk | hk | hk := hk
    all_goals
      simp only [initStep, hk, postSync_of_busy hs, awaitSync_of_busy hs]
      exact orHold_held hf
  · simp only [initStep, hk, hm, postSync_of_busy hs]
    exact orHold_held hf

/-- Settles O44: each step by its line of `initStep`. -/
theorem initPerformsItsStepsInOrder : Obligations.InitPerformsItsStepsInOrder := by
  refine ⟨⟨rfl, rfl⟩, fun s => exec_init_idle, fun s f hi hc hn => ?_⟩
  have hf : s.callFrame = some f := by simp [State.callFrame, hc, hn]
  have he : exec .init s = initStep f s := exec_init_sequencer hi hf
  dsimp only
  rw [he]
  refine ⟨fun hk => ?_, fun hk => ?_, fun hk => ?_, fun hk => ?_, fun hk => ?_, fun hk => ?_, fun hk => ?_,
    fun hk hs => ?_, fun hk hs => ?_, fun hk hs => ?_, fun hk hs => ?_, fun hk hs => ?_, fun hk hs => ?_,
    fun hk hs => ?_, fun hk hm hs => ?_, fun hk hm => ?_, fun hk hs => ?_, fun hk => ?_, fun hk hs => ?_,
    fun hk hs => ?_, fun hk => ?_, fun hk => ?_, fun hk hs => initStep_held hf hs hk⟩
  case refine_18 =>
    cases hm : s.cfg.mode <;>
      simp [initStep, hk, hm, setCall_of_normal, hc, Flags.union, modeFlags, Flags.onlyCmp, Flags.onlyOvf]
  all_goals simp [initStep, orHold_posts, orHold_goes, State.endCall, State.logged, setCall_of_normal,
    Flags.diff, Flags.both, initCtrl, resetCtrl, *]

/-! ### ANNOUNCE and IRET -/

/-- A turn that the machine is given first is taken in the machine's state without it. -/
theorem step_of_sched {s : State} {t : Turn} {ts : List Turn} (h : s.Running) (hs : s.sched = t :: ts) :
    step s = takeTurn t { s with sched := ts } := by
  rw [step_running h.1 h.2]
  simp [nextTurn, hs]

theorem callbackOpen_iff {s : State} : s.callbackOpen = true ↔ ∃ f, s.seqAnn = some f ∧ f.k = 2 := by
  unfold State.callbackOpen
  split <;> simp_all

theorem hostReturns_open {s : State} (ho : s.callbackOpen = true) (hn : s.seqCall = none) :
    hostReturns s = { s with seqAnn := none } :=
  if_pos ⟨ho, hn⟩

theorem hostReturns_of_call {s : State} (hn : s.seqCall ≠ none) : hostReturns s = s :=
  if_neg fun h => hn h.2

/-- Settles O47: the host's return needs the callback open with no call in flight. -/
theorem announceLogsAndOpensTheCallback : Obligations.AnnounceLogsAndOpensTheCallback := by
  refine ⟨fun s n f hi hf hk => ?_, fun s n f hi hf hk => ?_, fun s f ts hr hs hf hk => ?_⟩
  · simp [exec, execAnnounce, hi, hf, hk]
  · simp [exec, execAnnounce, hi, hf, hk]
  · have ho : State.callbackOpen { s with sched := ts } = true := callbackOpen_iff.2 ⟨f, hf, hk⟩
    rw [step_of_sched hr hs]
    refine ⟨fun hn => ?_, fun hn => ?_⟩
    · exact congrArg (fun u => settle (.next u)) (hostReturns_open ho hn)
    · exact congrArg (fun u => settle (.next u)) (hostReturns_of_call (s := { s with sched := ts }) hn)

theorem execIret_sequencer {s : State} (hi : s.issuer = .sequencer) (hc : s.ctx = .isr) :
    execIret s = .next { s with
      ctx := .normal, seqIsr := none,
      irqPend := s.irqPend || (s.intflag.cmp && s.inten.cmp || s.intflag.ovf && s.inten.ovf) } := by
  rw [← level_eq]
  simp [execIret, hi, hc, returnFromInterrupt]

/-- Settles O48. -/
theorem iretReturnsToNormalContext : Obligations.IretReturnsToNormalContext :=
  fun _ => execIret_sequencer

/-! ### The tickless calls -/

section
variable {s : State} {f : Frame} {m : Mode}

/-- A call that is admitted performs its step 1. -/
theorem perform_accepted {i : Instr} {body : Frame → State → Res} (h : s.AcceptsCall m) :
    perform i (admitCall m s) body s = body (Frame.start i) s := by
  rw [admitCall_of_acceptsCall h, perform_admitted h.1]

/-- A call that ends leaves no frame: the one that was issued had none stored. -/
theorem setCall_none_of_accepted (h : s.AcceptsCall m) : s.setCall none = s := by
  refine setCall_callFrame s none ?_
  obtain ⟨-, -, -, ⟨hc, hn⟩ | ⟨hc, -, hn⟩⟩ := h <;> simp [State.callFrame, hc, hn]

end

/-- Settles O54: the step logs the return, and there is no frame to end. -/
theorem idleExitOnlyLogs : Obligations.IdleExitOnlyLogs := by
  refine fun s => ⟨fun h => ?_, fun h => ?_⟩
  · change perform _ (admitCall .tickless s) idleExitTStep s = _
    rw [perform_accepted h]
    exact congrArg (fun t : State => Host.Outcome.next (t.logged _)) (setCall_none_of_accepted h)
  · change perform _ (admitCall .periodic s) idleExitPStep s = _
    rw [perform_accepted h]
    exact congrArg (fun t : State => Host.Outcome.next (t.logged _)) (setCall_none_of_accepted h)

/-- The steps of SET_TIMEOUT.T that access or await the slot hold while it is occupied (41 R141). -/
theorem setTimeoutTStep_held {ticks : Word} {f : Frame} {s : State} (hf : s.callFrame = some f)
    (hs : s.syncOp ≠ .none) (hk : f.k ∈ [2, 3, 5, 6]) : setTimeoutTStep ticks f s = .next s := by
  simp only [List.mem_cons, List.not_mem_nil, or_false] at hk
  obtain hk | hk | hk | hk := hk
  all_goals simp only [setTimeoutTStep, hk, postSync_of_busy hs, awaitSync_of_busy hs, orHold_held hf]

/-- Settles O49: each step by its line of `setTimeoutTStep`. -/
theorem setTimeoutTPerformsItsSteps : Obligations.SetTimeoutTPerformsItsSteps := by
  intro ticks b s f
  dsimp only
  have he {k : Nat} (h : s.CallAt f k) : exec (.setTimeoutT ticks b) s = setTimeoutTStep ticks f s :=
    perform_sequencer h.1 h.2.1
  refine ⟨fun h => ?_, fun h hs => ?_, fun h hs => ?_, fun h hr => ?_, fun h hr => ?_, fun h hs => ?_,
    fun h hs => ?_, fun k hk h hs => ?_⟩
  case refine_1 => exact perform_accepted h
  all_goals rw [he h]
  · simp [setTimeoutTStep, h.2.2, orHold_posts hs]
  · simp [setTimeoutTStep, h.2.2, orHold_goes hs]
  · have hd : waitDistance s.cfg f.t f.c f.m < s.cfg.leadThreshold := hr
    simp only [setTimeoutTStep, h.2.2, hd, ↓reduceIte]
    rfl
  · have hd : ¬ waitDistance s.cfg f.t f.c f.m < s.cfg.leadThreshold := Nat.not_lt.2 hr
    simp only [setTimeoutTStep, h.2.2, hd, ↓reduceIte]
    rfl
  · simp [setTimeoutTStep, h.2.2, orHold_goes hs]
  · simp only [setTimeoutTStep, h.2.2, orHold_posts hs]
    rfl
  · exact setTimeoutTStep_held h.2.1 hs (h.2.2 ▸ hk)

/-- Settles O53: each step by its line of the two bodies. -/
theorem queryElapsedPerformsItsSteps : Obligations.QueryElapsedPerformsItsSteps := by
  intro s f
  dsimp only
  have ht {k : Nat} (h : s.CallAt f k) : exec .queryElapsedT s = queryElapsedTStep f s :=
    perform_sequencer h.1 h.2.1
  have hp {k : Nat} (h : s.CallAt f k) : exec .queryElapsedP s = queryElapsedPStep f s :=
    perform_sequencer h.1 h.2.1
  refine ⟨fun h => perform_accepted h, fun h hs => ?_, fun h hs => ?_, fun h => ?_, fun k hk h hs => ?_,
    fun h => perform_accepted h, fun h => ?_⟩
  · rw [ht h]
    simp [queryElapsedTStep, h.2.2, orHold_posts hs]
  · rw [ht h]
    simp [queryElapsedTStep, h.2.2, orHold_goes hs]
  · rw [ht h]
    simp only [queryElapsedTStep, h.2.2]
    rfl
  · rw [ht h]
    obtain ⟨-, hf, rfl⟩ := h
    simp only [List.mem_cons, List.not_mem_nil, or_false] at hk
    obtain hk | hk := hk
    all_goals simp only [queryElapsedTStep, hk, postSync_of_busy hs, awaitSync_of_busy hs, orHold_held hf]
  · rw [hp h]
    simp only [queryElapsedPStep, h.2.2]
    rfl

/-! ### SET_TIMEOUT.P -/

/-- Settles O57: each step by its line of `setTimeoutPStep`. -/
theorem setTimeoutPPerformsItsSteps : Obligations.SetTimeoutPPerformsItsSteps := by
  intro ticks b s f
  dsimp only
  have he {k : Nat} (h : s.CallAt f k) : exec (.setTimeoutP ticks b) s = setTimeoutPStep ticks f s :=
    perform_sequencer h.1 h.2.1
  refine ⟨fun h h0 => ?_, fun h h0 => ?_, fun h => ?_, fun h hn => ?_, fun h hp => ?_, fun h => ?_⟩
  · subst h0
    exact exec_setTimeoutP_zero b h
  · refine (perform_accepted (m := .periodic) h).trans ?_
    simp only [setTimeoutPStep, Frame.start, ticksOf_eq_zero, h0, ↓reduceIte]
    rfl
  · simp [he h, setTimeoutPStep, h.2.2]
  · have ht : ticksOf ticks < 0 := hn
    simp [he h, setTimeoutPStep, h.2.2, ht]
  · have ht : ¬ ticksOf ticks < 0 := Int.not_lt.2 (Int.le_of_lt hp)
    simp [he h, setTimeoutPStep, h.2.2, ht]
  · rw [he h]
    simp only [setTimeoutPStep, h.2.2]
    rfl

/-! ### The handlers -/

section
variable {s : State} {f : Frame} {k : Nat}

theorem exec_isrT_handler (h : s.HandlerAt f k) : exec .isrT s = isrTStep f s := by
  obtain ⟨hi, -, hf, -⟩ := h
  simp [exec, execIsrT, hi, hf]

theorem exec_isrP_handler (h : s.HandlerAt f k) : exec .isrP s = isrPStep f s := by
  obtain ⟨hi, -, hf, -⟩ := h
  simp [exec, execIsrP, hi, hf]

/-- The handler's announcing step logs the announcement and opens the callback (43 R183, log entry 17). -/
theorem callAnnounce_sequencer {n : Word} (hi : s.issuer = .sequencer) :
    callAnnounce n f s = .next { s with
      log := s.log ++ [.announce n], seqIsr := some f,
      seqAnn := some { Frame.start (.announce n) with k := 2 } } := by
  simp [callAnnounce, execAnnounce, hi, Frame.start]

end

theorem isEmpty_iff {f : Flags} : f.isEmpty = true ↔ f = ⟨false, false⟩ := by
  rcases f with ⟨c, o⟩
  cases c <;> cases o <;> decide

/-- Settles O55: each step by its line of `isrTStep`. -/
theorem isrTPerformsItsSteps : Obligations.IsrTPerformsItsSteps := by
  intro s f
  dsimp only
  refine ⟨fun h => ?_, fun h => ?_, fun h hs => ?_, fun h hs => ?_, fun k hk h hs => ?_, fun h hm => ?_,
    fun h hm => ?_, fun h => ?_, fun h => ?_, fun h hz => ?_, fun h hz => ?_, fun h => ?_⟩
  all_goals
    rw [exec_isrT_handler h]
    obtain ⟨hi, hc, hf, hk'⟩ := h
  · simp [isrTStep, hk']
  · simp [isrTStep, hk', Flags.diff]
  · simp [isrTStep, hk', postSync_of_empty hs]
  · simp [isrTStep, hk', awaitSync_of_empty hs]
  · rw [← hk'] at hk
    simp only [List.mem_cons, List.not_mem_nil, or_false] at hk
    obtain hk | hk := hk
    · simp [isrTStep, hk, postSync_of_busy hs]
    · simp [isrTStep, hk, awaitSync_of_busy hs]
  · simp [isrTStep, hk', hm]
  · simp [isrTStep, hk', hm]
  · simp only [isrTStep, hk', callAnnounce_sequencer hi]
    rfl
  · simp [isrTStep, hk']
  · simp [isrTStep, hk', hz, callAnnounce_sequencer hi]
  · simp [isrTStep, hk', hz]
  · simp only [isrTStep, hk', execIret_sequencer hi hc]

/-- Settles O59: each step by its line of `isrPStep`. -/
theorem isrPPerformsItsSteps : Obligations.IsrPPerformsItsSteps := by
  intro s f
  dsimp only
  refine ⟨fun h => ?_, fun h => ?_, fun h => ?_, fun h ht => ?_, fun h ht => ?_, fun h => ?_, fun h => ?_,
    fun h => ?_, fun h => ?_⟩
  all_goals
    rw [exec_isrP_handler h]
    obtain ⟨hi, hc, hf, hk⟩ := h
  · simp [isrPStep, hk]
  · simp [isrPStep, hk, Flags.diff, isEmpty_iff]
  · simp [isrPStep, hk]
  · simp [isrPStep, hk, ht]
  · simp [isrPStep, hk, ht]
  · simp [isrPStep, hk, callAnnounce_sequencer hi]
  · simp [isrPStep, hk]
  · simp [isrPStep, hk, callAnnounce_sequencer hi]
  · simp only [isrPStep, hk, execIret_sequencer hi hc]

end Sys2Proof.Machine
end

section
/-! PROOF. The decoder's field constraints (O5) and the step (O7 to O10, O12, O45). -/

namespace Sys2Proof

/-! ### The field constraints, as 30 R92 lists them -/

/-- The codes of the rows that take each operand. -/
theorem Row.code_mem (row : Row) :
    (row.code.toNat ∉ [0x02, 0x82] ↔ row.hasB = false) ∧ (row.code.toNat ∉ [0x70, 0x71] ↔ row.hasV = false) ∧
      (row.code.toNat ∉ [0x02, 0x82, 0x06, 0x41, 0x46, 0x47, 0x48, 0x4A, 0x65, 0x71] ↔ row.hasImm = false) ∧
      (row.code.toNat = 0x4A ↔ row = .wrCtrl) ∧ (row.code.toNat ∈ [0x46, 0x47, 0x48] ↔ row.hasFlags = true) ∧
      (row.code.toNat = 0x65 ↔ row = .irqUnlock) := by
  cases row <;> decide

/-- The bits that a mask covers are 0 if the masked word is. -/
theorem extractLsb'_eq_zero {w mask : Word} {k n : Nat} (h : w &&& mask = 0)
    (hm : ∀ i < n, mask.getLsbD (k + i) = true) : w.extractLsb' k n = 0 := by
  ext i hi
  have hb := congrArg (fun x : Word => x.getLsbD (k + i)) h
  simpa [hm i hi] using hb

/-- A control value passes `ctrlOk` when it has no bit but SWRST, ENABLE and MATCHCLR. -/
theorem ctrlOk_iff {w : Word} : ctrlOk w = true ↔ w &&& 0xFFFFFF7C = 0 := by
  constructor
  · intro h
    obtain ⟨hw, hm⟩ := Ctrl.toWord_ofWord h
    rw [← hw]
    generalize Ctrl.ofWord w = c at hm
    rcases c with ⟨s, e, m, mc, p⟩
    simp only [Ctrl.modelled, Bool.and_eq_true, beq_iff_eq] at hm
    obtain ⟨rfl, rfl⟩ := hm
    cases s <;> cases e <;> cases mc <;> decide
  · intro h
    simp only [ctrlOk, Bool.and_eq_true, beq_iff_eq]
    exact ⟨⟨⟨extractLsb'_eq_zero h (by decide), extractLsb'_eq_zero h (by decide)⟩,
      extractLsb'_eq_zero h (by decide)⟩, extractLsb'_eq_zero h (by decide)⟩

theorem flagsOk_iff {w : Word} : flagsOk w = true ↔ w &&& 0xFFFFFF7E = 0 := by
  rw [flagsOk, beq_iff_eq, show (~~~(0x81 : Word)) = 0xFFFFFF7E by decide]

/-- Only the selector 3 names no variable (30 R84). -/
theorem Var.ofBits_eq_none_iff {v : BitVec 2} : Var.ofBits v = none ↔ v = 3 := by
  revert v
  decide

/-- For an assigned code the selector and the row's constraints decide (30 R98). -/
theorem decode_assigned {w : OpWord} {row : Row} (hr : w.rsv = 0) (hl : lookup w.opc = some row) :
    (w.v ≠ 3 ∧ row.fieldsOk w.b w.v w.imm = true → ∃ i, decode w = .ok i) ∧
      (¬ (w.v ≠ 3 ∧ row.fieldsOk w.b w.v w.imm = true) → decode w = .error .field) := by
  cases hv : Var.ofBits w.v with
  | none =>
    have h3 := Var.ofBits_eq_none_iff.1 hv
    exact ⟨fun h => absurd h3 h.1, fun _ => by simp [decode, hr, hl, hv]⟩
  | some var =>
    have h3 : w.v ≠ 3 := fun h => by simp [Var.ofBits_eq_none_iff.2 h] at hv
    cases hf : row.fieldsOk w.b w.v w.imm with
    | false => exact ⟨fun h => by simp at h, fun _ => by simp [decode, hr, hl, hv, hf]⟩
    | true => exact ⟨fun _ => ⟨_, by simp only [decode, hr, hl, hv, hf]; rfl⟩, fun h => absurd ⟨h3, rfl⟩ h⟩

open Machine in
/-- Settles O5: the list says that the selector is 3 or that `Row.fieldsOk` fails. -/
theorem fieldConstraintsDecideAcceptance : Obligations.FieldConstraintsDecideAcceptance := by
  intro w row hr hl
  dsimp only
  obtain ⟨hok, herr⟩ := decode_assigned hr hl
  have hc : w.extractLsb' 0 8 = row.code := lookup_eq_some_iff.1 hl
  obtain ⟨hB, hV, hImm, hCtrl, hFlags, hKey⟩ := row.code_mem
  rw [hc, hB, hV, hImm, hCtrl, hFlags, hKey, ← Nat.not_le, ← keyOk_iff]
  simp only [ne_eq, ← ctrlOk_iff, ← flagsOk_iff]
  have hf := Row.fieldsOk_iff (row := row) (b := w.b) (v := w.v) (imm := w.imm)
  simp only [OpWord.b, OpWord.v, OpWord.imm] at hf hok herr
  refine ⟨fun hbad => herr fun hgood => ?_, fun hbad => hok ?_⟩
  · grind
  · grind

end Sys2Proof

namespace Sys2Proof.Machine

/-! ### What the next turn runs -/

/-- Settles O7: an issued word is decoded and performed as the host's. -/
theorem stepRunsTheIssuedWord : Obligations.StepRunsTheIssuedWord := by
  have key (s : State) (w : OpWord) (i : Instr) (ts : List Turn) (hr : s.Running)
      (hs : s.sched = .issue w :: ts) (hd : decode w = .ok i) :
      step s = settle (exec i { s with sched := ts, issuer := .host }) := by
    rw [step_of_sched hr hs]
    simp [takeTurn, issueWord, hd]
  refine ⟨key, fun s nbits w i hr hd => ?_⟩
  have hw : decode (tableWord nbits w) = .ok i := by
    unfold decodeTableWord at hd
    split at hd
    · next h => exact h.trans (congrArg Except.ok (Option.some.inj hd))
    · cases hd
  exact key (s.withFetchWord nbits w) (tableWord nbits w) i s.sched hr rfl hw

/-- A processor turn performs the operation of the running context. -/
theorem step_proc {s : State} {i : Instr} {ts : List Turn} (hr : s.Running) (hs : s.sched = .proc :: ts)
    (hi : s.currentOp = some i) : step s = settle (exec i { s with sched := ts, issuer := .sequencer }) := by
  have hi' : State.currentOp { s with sched := ts } = some i := hi
  rw [step_of_sched hr hs]
  simp [takeTurn, proceed, hi']

/-- Settles O8: `currentOp` and `programOp` name the operation of the frame. -/
theorem stepRunsTheRunningOperation : Obligations.StepRunsTheRunningOperation := by
  refine ⟨fun s f ts hr hs hf => step_proc hr hs ?_, fun s n f ts hr hs hc hf => ?_⟩
  · obtain ⟨hc, hf⟩ | ⟨hc, hf⟩ | ⟨hc, hn, hf⟩ | ⟨hc, hn, ha, hf⟩ := hf
    all_goals simp_all [State.currentOp]
  · have hi : State.programOp { s with sched := ts } n = some f.op := by simp [State.programOp, hc, hf]
    rw [step_of_sched hr hs]
    simp [takeTurn, programStep, hi]

/-- Settles O9: `step` tests REFUSED first. -/
theorem refusedMachineHasNoStep : Obligations.RefusedMachineHasNoStep :=
  ⟨fun _ => rfl, fun _ _ => rfl, fun s h => by simp [step, stepTurn, h]⟩

/-- The constraints on the parameters, one by one (00 R4 to R6, 70 R244). -/
theorem valid_iff {c : Config} : c.valid = true ↔
    1 ≤ c.cpt ∧ (c.mode = .tickless ∨ 2 ≤ c.cpt) ∧ c.maxTicks * c.cpt + 2 * (c.cpt - 1) ≤ 2 ^ 32 - 1 ∧
      1 ≤ c.leadThreshold := by
  simp only [Config.valid, Bool.and_eq_true, Bool.or_eq_true, decide_eq_true_eq, beq_iff_eq, and_assoc]

/-- Settles O10: `step` tests the parameters before it takes a turn. -/
theorem invalidConfigurationIsRefused : Obligations.InvalidConfigurationIsRefused := by
  intro s hr hb
  have hv : s.cfg.valid = false := by
    rw [← Bool.not_eq_true, valid_iff]
    rintro ⟨hc, hm, ht, hl⟩
    obtain h | ⟨h, h'⟩ | h | h := hb
    · omega
    · obtain e | e := hm
      · simp [h] at e
      · omega
    · omega
    · omega
  simp [step, stepTurn, hr, hv, refuse]

/-! ### Launch -/

theorem launch_inv (cfg : Config) : (State.launch cfg).Inv := by
  constructor <;> simp [State.launch]

/-- Settles O12: `launch_inv`, and the fields of `State.launch`. -/
theorem launchMeetsTheInvariant : Obligations.LaunchMeetsTheInvariant :=
  ⟨fun cfg => ⟨launch_inv cfg, rfl, rfl, rfl, rfl, rfl, rfl, rfl, rfl, rfl, rfl, rfl, rfl⟩, ⟨_, rfl⟩,
    launch_inv _⟩

/-- Settles O45: phase 2 asks for no more than step 1 has established. -/
theorem initEntersItsPhases : Obligations.InitEntersItsPhases := by
  intro s h hi he
  refine ⟨_, { Frame.start .init with k := 2 }, exec_init_idle h hi, ?_, rfl⟩
  constructor <;> simp [h.2.1, hi, he, Frame.start]

end Sys2Proof.Machine
end

section
/-! PROOF. The tick arithmetic of 41 R141 and R142: O50 and O51. -/

namespace Sys2Proof.Machine

theorem clampTicks_le (cfg : Config) (ticks : Word) : clampTicks cfg ticks ≤ cfg.maxTicks := by
  unfold clampTicks
  split <;> omega

theorem clampTicks_zero (cfg : Config) : clampTicks cfg 0 = 0 := by
  simp [clampTicks, ticksOf]

/-- Rounding up to a whole tick: the ticks asked for, and one more unless the read is on the mark's phase. -/
theorem waitDistance_eq {cfg : Config} (hc : 0 < cfg.cpt) (t : Nat) (c m : Word) :
    waitDistance cfg t c m = (if phase cfg c m = 0 then t else t + 1) * cfg.cpt := by
  have hp : phase cfg c m < cfg.cpt := Nat.mod_lt _ hc
  unfold waitDistance
  generalize phase cfg c m = p at hp
  split
  · next h =>
    rw [show t * cfg.cpt + p + cfg.cpt - 1 = (cfg.cpt - 1) + cfg.cpt * t by rw [Nat.mul_comm]; omega,
      Nat.add_mul_div_left _ _ hc, Nat.div_eq_of_lt (by omega), Nat.zero_add]
  · next h =>
    rw [show t * cfg.cpt + p + cfg.cpt - 1 = (p - 1) + cfg.cpt * (t + 1) by
        rw [Nat.mul_comm, Nat.mul_succ]; omega,
      Nat.add_mul_div_left _ _ hc, Nat.div_eq_of_lt (by omega), Nat.zero_add]

/-- Settles O50: `waitDistance_eq`, and the bound that 00 R5 puts on MAX_TICKS. -/
theorem waitDistanceIsBoundedAndRounded : Obligations.WaitDistanceIsBoundedAndRounded := by
  intro cfg ticks c m hv
  dsimp only
  obtain ⟨hc, -, hb, hl⟩ := valid_iff.1 hv
  have ht := clampTicks_le cfg ticks
  have hr := waitDistance_eq hc (clampTicks cfg ticks) c m
  have hp : (c - m).toNat % cfg.cpt < cfg.cpt := Nat.mod_lt _ hc
  have htc : clampTicks cfg ticks * cfg.cpt ≤ cfg.maxTicks * cfg.cpt := Nat.mul_le_mul_right _ ht
  have hw : waitDistance cfg (clampTicks cfg ticks) c m ≤
      clampTicks cfg ticks * cfg.cpt + (c - m).toNat % cfg.cpt + cfg.cpt - 1 := Nat.div_mul_le_self _ _
  have hge : clampTicks cfg ticks * cfg.cpt ≤ waitDistance cfg (clampTicks cfg ticks) c m := by
    rw [hr]
    exact Nat.mul_le_mul_right _ (by split <;> omega)
  refine ⟨ht, by omega, by omega, Nat.mul_mod_left _ _, hge, hr, fun h0 hp0 => ?_⟩
  rw [hr, h0, clampTicks_zero, if_pos (show phase cfg c m = 0 from hp0)]
  omega

/-- Settles O51: under the bound the sums do not wrap, so the comparator is `q·CPT + p + r` past the mark, and
`r` is a whole number of ticks. -/
theorem comparatorLandsOnTheReadPhase : Obligations.ComparatorLandsOnTheReadPhase := by
  intro cfg t c m hv
  dsimp only
  intro hlt
  obtain ⟨hc, -⟩ := valid_iff.1 hv
  have hr := waitDistance_eq hc t c m
  generalize waitDistance cfg t c m = r at hr hlt
  have hsub : c + BitVec.ofNat 32 r - m = (c - m) + BitVec.ofNat 32 r := by
    rw [BitVec.sub_eq_add_neg, BitVec.sub_eq_add_neg, BitVec.add_assoc, BitVec.add_assoc,
      BitVec.add_comm (BitVec.ofNat 32 r)]
  have hcomp : (c + BitVec.ofNat 32 r - m).toNat = (c - m).toNat + r := by
    rw [hsub, BitVec.toNat_add, BitVec.toNat_ofNat]
    omega
  have hdiv := Nat.div_add_mod' (c - m).toNat cfg.cpt
  unfold phase at hr
  refine ⟨by omega, by rw [hcomp, hr, Nat.add_mul_mod_self_right], ?_⟩
  rw [elapsedTicks, hcomp, BitVec.toNat_ofNat,
    Nat.mod_eq_of_lt (Nat.lt_of_le_of_lt (Nat.div_le_self _ _) hlt), hr, Nat.add_mul_div_right _ _ hc]
  split <;> omega

end Sys2Proof.Machine
end

section
/-! PROOF. The counter and the synchronisation unit (40 R101 to R106, 70 R239, R243): O25 to O29. -/

namespace Sys2Proof.Machine

/-! ### Turns given one after another -/

/-- The machine takes the turn it is given, whatever its own schedule holds. -/
theorem step_given {s : State} {t : Turn} (h : s.Running) :
    step { s with sched := t :: s.sched } = takeTurn t s :=
  step_of_sched (s := { s with sched := t :: s.sched }) h rfl

theorem runTurns_cons {s u : State} {t : Turn} (ts : List Turn) (h : s.Running)
    (ht : takeTurn t s = .next u) : runTurns (t :: ts) s = runTurns ts u := by
  simp only [runTurns, step_given h, ht]

theorem runTurns_append {a : List Turn} (b : List Turn) {s u : State} (h : runTurns a s = .next u) :
    runTurns (a ++ b) s = runTurns b u := by
  induction a generalizing s with
  | nil => cases h; rfl
  | cons t a ih =>
    simp only [runTurns] at h
    simp only [List.cons_append, runTurns]
    split at h
    · exact ih h
    · cases h
    · cases h

/-! ### The agents' turns -/

/-- The counter writes COUNT and INTFLAG only, of the registers. -/
theorem counterAgent_frame (s : State) :
    ∃ n f k, counterAgent s = { s with count := n, intflag := f, fresh := k } := by
  obtain ⟨-, e⟩ | ⟨-, -, e⟩ | ⟨-, -, -, e⟩ | ⟨-, -, -, e⟩ := counterAgent_cases s
  · exact ⟨_, _, _, e⟩
  · exact ⟨s.count, s.intflag, s.fresh, e⟩
  · exact ⟨_, _, s.fresh, e⟩
  · exact ⟨_, _, s.fresh, e⟩

theorem counterAgent_disabled {s : State} (hl : s.swrstLanded = true) (he : s.ctrl.enable = false) :
    counterAgent s = s := by
  simp [counterAgent, hl, he]

theorem counterAgent_freeRun {s : State} (hl : s.swrstLanded = true) (he : s.ctrl.enable = true)
    (hm : s.ctrl.matchclr = false) : counterAgent s = countFreeRun s := by
  simp [counterAgent, hl, he, hm]

theorem counterAgent_matchClear {s : State} (hl : s.swrstLanded = true) (he : s.ctrl.enable = true)
    (hm : s.ctrl.matchclr = true) : counterAgent s = countMatchClear s := by
  simp [counterAgent, hl, he, hm]

theorem syncUnit_writeComp {s : State} {v : Word} (h : s.syncOp = .writeComp v) :
    syncUnit s = { s with comp := v, syncOp := .none, syncbusy := false } := by
  simp [syncUnit, h]

theorem syncUnit_readCount {s : State} (h : s.syncOp = .readCount) :
    syncUnit s = { s with countSnap := s.count, syncOp := .none, syncbusy := false } := by
  simp [syncUnit, h]

theorem syncUnit_writeCtrl {s : State} {c : Ctrl} (h : s.syncOp = .writeCtrl c) (hc : c.swrst = false) :
    syncUnit s = { s with ctrl := c, syncOp := .none, syncbusy := false } := by
  simp [syncUnit, h, hc]

theorem syncUnit_reset {s : State} {c : Ctrl} (h : s.syncOp = .writeCtrl c) (hc : c.swrst = true) :
    syncUnit s = softwareReset s := by
  simp [syncUnit, h, hc]

theorem syncUnit_empty {s : State} (h : s.syncOp = .none) : syncUnit s = s := by
  simp [syncUnit, h]

/-! ### One turn of each, and fairness -/

/-- Settles O25: `counterAgent`, branch by branch; a fair run gives an enabled counter another turn. -/
theorem counterTurnCountsWhenEnabled : Obligations.CounterTurnCountsWhenEnabled := by
  refine ⟨fun s ts hr hs hl => ?_, fun τ σ n hrun hfair hen k hk => ?_⟩
  · have ht : step s = .next (latch (counterAgent { s with sched := ts })) := step_of_sched hr hs
    dsimp only
    rw [ht]
    refine ⟨fun he => ?_, fun he hm => ?_, fun he hm hc => ?_, fun he hm hc => ?_⟩
    · rw [counterAgent_disabled (s := { s with sched := ts }) hl he]
    · rw [counterAgent_freeRun (s := { s with sched := ts }) hl he hm]
      rfl
    · rw [counterAgent_matchClear (s := { s with sched := ts }) hl he hm]
      simp [countMatchClear, show s.count + 1#32 = s.comp from hc, flagsMatchClear, Flags.union]
    · rw [counterAgent_matchClear (s := { s with sched := ts }) hl he hm]
      have hb : (s.count + 1#32 == s.comp) = false := beq_eq_false_iff_ne.2 hc
      simp [countMatchClear, ne_of_beq_false hb, hb, flagsMatchClear, Flags.union]
  · obtain ⟨m, hm, ht⟩ := hfair .counter rfl k fun m hm => hen m (by omega)
    exact ⟨m, hm, ht, run_counter hrun ht⟩

/-- Settles O29: `syncUnit`, branch by branch; what occupies the slot stays until the unit's turn, which a fair
run gives it. -/
theorem syncTurnLandsTheSlot : Obligations.SyncTurnLandsTheSlot := by
  refine ⟨fun s ts hr hs => ?_, fun τ σ n hrun hfair hne => ?_⟩
  · have ht : step s = .next (latch (syncUnit { s with sched := ts })) := step_of_sched hr hs
    rw [ht]
    refine ⟨fun h => ?_, fun v h => ?_, fun h => ?_, fun c h hc => ?_, fun c h hc => ?_⟩
    · rw [syncUnit_empty (s := { s with sched := ts }) h]
    · rw [syncUnit_writeComp (s := { s with sched := ts }) h]
    · rw [syncUnit_readCount (s := { s with sched := ts }) h]
    · rw [syncUnit_writeCtrl (s := { s with sched := ts }) h hc]
    · rw [syncUnit_reset (s := { s with sched := ts }) h hc]
      rfl
  · have hex : ∃ m, n ≤ m ∧ τ m = .sync := by
      by_contra hno
      have hkept (m : Nat) (hm : n ≤ m) : (σ m).syncOp = (σ n).syncOp :=
        run_slot_until hrun hm hne fun k hk _ ht => hno ⟨k, hk, ht⟩
      exact hno (hfair .sync rfl n fun m hm => by simp [State.stepEnabled, hkept m hm, hne])
    classical
    obtain ⟨hm, ht⟩ := Nat.find_spec hex
    refine ⟨Nat.find hex, hm, ht, ?_, run_sync hrun ht⟩
    exact run_slot_until hrun hm hne fun k hk hlt hs => Nat.find_min hex hlt ⟨hk, hs⟩

/-! ### Counting free -/

theorem runTurns_sync (s : State) (h : s.Running) : runTurns [.sync] s = .next (latch (syncUnit s)) :=
  runTurns_cons [] h rfl

theorem runTurns_counter (s : State) (h : s.Running) :
    runTurns [.counter] s = .next (latch (counterAgent s)) :=
  runTurns_cons [] h rfl

/-- After `j` counter turns with MATCHCLR = 0, COUNT is `j` further; CMP is set if one of the values it took
was COMP. Beside COUNT and INTFLAG only the latch's bit changes. -/
theorem runTurns_freeRun {s : State} (j : Nat) (hr : s.Running) (hl : s.swrstLanded = true)
    (he : s.ctrl.enable = true) (hm : s.ctrl.matchclr = false) :
    ∃ f p, runTurns (List.replicate j .counter) s =
        .next { s with count := s.count + BitVec.ofNat 32 j, intflag := f, irqPend := p } ∧
      f.cmp = (s.intflag.cmp || decide (∃ i < j, s.count + BitVec.ofNat 32 (i + 1) = s.comp)) := by
  induction j with
  | zero => exact ⟨s.intflag, s.irqPend, by simp [runTurns], by simp⟩
  | succ j ih =>
    obtain ⟨f, p, hj, hf⟩ := ih
    have hn : s.count + BitVec.ofNat 32 j + 1 = s.count + BitVec.ofNat 32 (j + 1) := by
      rw [BitVec.add_assoc]
      exact congrArg (s.count + ·) (BitVec.ofNat_add j 1).symm
    rw [List.replicate_succ', runTurns_append _ hj,
      runTurns_counter { s with count := s.count + BitVec.ofNat 32 j, intflag := f, irqPend := p } hr,
      counterAgent_freeRun (by exact hl) (by exact he) (by exact hm)]
    simp only [countFreeRun, hn]
    refine ⟨_, _, rfl, ?_⟩
    simp only [flagsFreeRun, Flags.union, hf, Nat.exists_lt_succ_right, Bool.decide_or, Bool.or_assoc]
    rfl

/-- COUNT arrives at COMP after the modular distance, a whole turn of the counter when they are equal, and not
before (70 R238). -/
theorem arrives_iff {c comp : Word} {n : Nat} (h0 : 0 < n)
    (hn : n ≤ if comp = c then 2 ^ 32 else (comp - c).toNat) :
    c + BitVec.ofNat 32 n = comp ↔ n = if comp = c then 2 ^ 32 else (comp - c).toNat := by
  rw [← BitVec.toNat_inj, BitVec.toNat_add, BitVec.toNat_ofNat]
  have hc := c.isLt
  have hd := comp.isLt
  split at hn
  · next h => rw [h, if_pos rfl]; omega
  · next h =>
    rw [if_neg h]
    rw [BitVec.toNat_sub] at hn ⊢
    have hne : comp.toNat ≠ c.toNat := fun e => h (BitVec.eq_of_toNat_eq e)
    omega

/-- Settles O26: of the values that COUNT takes in `j` turns only the last can be COMP. -/
theorem freeRunningCounterMatchesOnArrival : Obligations.FreeRunningCounterMatchesOnArrival := by
  intro s j hr hl he hm
  dsimp only
  intro hj
  obtain ⟨f, p, hrun, hf⟩ := runTurns_freeRun j hr hl he hm
  refine ⟨_, hrun, rfl, rfl, hf.trans (congrArg _ (decide_eq_decide.2 ?_))⟩
  constructor
  · rintro ⟨i, hi, h⟩
    have hd := (arrives_iff (Nat.succ_pos i) (by omega)).1 h
    omega
  · intro h
    have hpos : 0 < j := by
      rw [h]
      split
      · decide
      · next hne =>
        refine Nat.pos_of_ne_zero fun h0 => hne ?_
        exact (BitVec.sub_eq_iff_eq_add.1 (BitVec.eq_of_toNat_eq h0)).trans (BitVec.zero_add _)
    refine ⟨j - 1, by omega, ?_⟩
    rw [Nat.sub_add_cancel hpos]
    exact (arrives_iff hpos hj).2 h

/-! ### Counting with match-clear -/

/-- One counter step with MATCHCLR = 1 below COMP is addition modulo COMP, and a return to 0 sets both flags. -/
theorem countMatchClear_below {s : State} (h : s.count.toNat < s.comp.toNat) :
    countMatchClear s = { s with
      count := BitVec.ofNat 32 ((s.count.toNat + 1) % s.comp.toNat),
      intflag := s.intflag.union ⟨decide (s.count.toNat + 1 = s.comp.toNat),
        decide (s.count.toNat + 1 = s.comp.toNat)⟩ } := by
  have hc := s.comp.isLt
  have hn : (s.count + 1#32).toNat = s.count.toNat + 1 := by
    rw [BitVec.toNat_add]
    exact Nat.mod_eq_of_lt (by simp; omega)
  have h0 : s.count + 1#32 ≠ 0#32 := fun e => by rw [e] at hn; cases hn
  by_cases hm : s.count + 1#32 = s.comp
  · have hm' : s.count.toNat + 1 = s.comp.toNat := hn ▸ congrArg BitVec.toNat hm
    simp [countMatchClear, flagsMatchClear, hm, hm']
  · have hm' : s.count.toNat + 1 ≠ s.comp.toNat := fun e => hm (BitVec.eq_of_toNat_eq (hn.trans e))
    have hv : BitVec.ofNat 32 (s.count.toNat + 1) = s.count + 1#32 := by
      rw [← hn, BitVec.ofNat_toNat, BitVec.setWidth_eq]
    have hlt : s.count.toNat + 1 < s.comp.toNat := by omega
    simp [countMatchClear, flagsMatchClear, hm, hm', beq_eq_false_iff_ne.2 hm, beq_eq_false_iff_ne.2 h0,
      Nat.mod_eq_of_lt hlt, hv]

/-- Adding 1 modulo `m` returns to 0 where the sum reaches the next multiple. -/
theorem returns_iff {c m j : Nat} (hc : c < m) : m ≤ c + (j + 1) ↔ m ≤ c + j ∨ (c + j) % m + 1 = m := by
  have hlt := Nat.mod_lt (c + j) (show 0 < m by omega)
  constructor
  · intro h
    by_cases hj : m ≤ c + j
    · exact .inl hj
    · exact .inr (by rw [Nat.mod_eq_of_lt (by omega)]; omega)
  · rintro (h | h)
    · omega
    · have := Nat.mod_le (c + j) m
      omega

/-- After `j` counter turns with MATCHCLR = 1 from below COMP, COUNT is `j` further modulo COMP, and the flags are
set if it has returned to 0. Beside COUNT and INTFLAG only the latch's bit changes. -/
theorem runTurns_matchClear {s : State} (j : Nat) (hr : s.Running) (hl : s.swrstLanded = true)
    (he : s.ctrl.enable = true) (hm : s.ctrl.matchclr = true) (hlt : s.count.toNat < s.comp.toNat) :
    ∃ p, runTurns (List.replicate j .counter) s = .next { s with
      count := BitVec.ofNat 32 ((s.count.toNat + j) % s.comp.toNat),
      intflag := s.intflag.union ⟨decide (s.comp.toNat ≤ s.count.toNat + j),
        decide (s.comp.toNat ≤ s.count.toNat + j)⟩,
      irqPend := p } := by
  have hcomp := s.comp.isLt
  have hsmall (k : Nat) : (BitVec.ofNat 32 (k % s.comp.toNat)).toNat = k % s.comp.toNat := by
    have hk := Nat.mod_lt k (show 0 < s.comp.toNat by omega)
    rw [BitVec.toNat_ofNat, Nat.mod_eq_of_lt (by omega)]
  induction j with
  | zero =>
    refine ⟨s.irqPend, ?_⟩
    simp [runTurns, Nat.mod_eq_of_lt hlt, Nat.not_le.2 hlt, Flags.union]
  | succ j ih =>
    obtain ⟨p, hj⟩ := ih
    rw [List.replicate_succ', runTurns_append _ hj, runTurns_counter _ (by exact hr),
      counterAgent_matchClear (by exact hl) (by exact he) (by exact hm), countMatchClear_below (by
        simpa only [hsmall] using Nat.mod_lt _ (show 0 < s.comp.toNat by omega))]
    simp only [hsmall, Nat.mod_add_mod, returns_iff hlt, Flags.union, Bool.decide_or, Bool.or_assoc,
      Nat.add_assoc]
    exact ⟨_, rfl⟩

/-- Settles O27: `runTurns_matchClear`. -/
theorem matchClearCounterHasPeriodComp : Obligations.MatchClearCounterHasPeriodComp := by
  intro s j hr hl he hm hlt
  obtain ⟨p, h⟩ := runTurns_matchClear j hr hl he hm hlt
  have hcomp := s.comp.isLt
  have hmod := Nat.mod_lt (s.count.toNat + j) (show 0 < s.comp.toNat by omega)
  refine ⟨_, h, ?_, rfl, rfl, rfl⟩
  rw [BitVec.toNat_ofNat, Nat.mod_eq_of_lt (by omega)]

/-! ### LEAD_TIME_OK (70 R239) -/

/-- The call of the running context is what the processor performs next. -/
theorem currentOp_of_callFrame {s : State} {f : Frame} (h : s.callFrame = some f) : s.currentOp = some f.op := by
  cases hc : s.ctx <;> simp_all [State.currentOp, State.callFrame]

/-- A processor turn of a run performs the step of the call in flight. -/
theorem run_callFrame {τ : Nat → Turn} {σ : Nat → State} (h : RunAlong τ σ) {n : Nat} {f : Frame}
    (ht : τ n = .proc) (hf : (σ n).callFrame = some f) :
    settle (exec f.op { σ n with issuer := .sequencer }) = .next (σ (n + 1)) := by
  have hn := (run_turn h n).2
  rw [ht] at hn
  simpa [takeTurn, proceed, currentOp_of_callFrame hf] using hn

theorem exec_setTimeoutT_sequencer {ticks : Word} {b : Bool} {s : State} {f : Frame}
    (h : s.issuer = .sequencer) (hf : s.callFrame = some f) :
    exec (.setTimeoutT ticks b) s = setTimeoutTStep ticks f s :=
  perform_sequencer h hf

/-- SET_TIMEOUT.T's step 6, performed in a run, leaves its write in the slot. -/
theorem writePath_posts {τ : Nat → Turn} {σ : Nat → State} {a b e : Nat} {f : Frame} (h : RunAlong τ σ)
    (hp : WritePath τ σ a b e f) : (σ (b + 1)).syncOp = .writeComp (f.c + BitVec.ofNat 32 f.r) := by
  obtain ⟨ticks, idle, ho⟩ := hp.op
  obtain ⟨-, -, ht, hf, hk, hs⟩ := hp.write
  have hb := run_callFrame h ht hf
  have hx : exec f.op { σ b with issuer := .sequencer } =
      setTimeoutTStep ticks f { σ b with issuer := .sequencer } := by
    rw [ho]
    exact exec_setTimeoutT_sequencer rfl hf
  rw [hx] at hb
  simp only [setTimeoutTStep, hk, orHold_posts (s := { σ b with issuer := .sequencer }) hs, settle_next] at hb
  rw [← Host.Outcome.next.inj hb]
  rfl

/-- While the counter runs free and no WR_COMP lands, COMP stays. -/
theorem run_comp {τ : Nat → Turn} {σ : Nat → State} (h : RunAlong τ σ) {a m : Nat} (ham : a ≤ m)
    (he : ∀ k, a ≤ k → k ≤ m → (σ k).ctrl.enable = true)
    (hw : ∀ k v, a ≤ k → k < m → τ k = .sync → (σ k).syncOp ≠ .writeComp v) : (σ m).comp = (σ a).comp := by
  induction m, ham using Nat.le_induction with
  | base => rfl
  | succ m hm ih =>
    rw [← ih (fun k h1 h2 => he k h1 (by omega)) fun k v h1 h2 => hw k v h1 (by omega)]
    by_cases hc : τ m = .counter
    · obtain ⟨n, f, k, e⟩ := counterAgent_frame (σ m)
      rw [run_counter h hc, e]
      rfl
    by_cases hs : τ m = .sync
    · have hen := he (m + 1) (by omega) (Nat.le_refl _)
      rw [run_sync h hs] at hen ⊢
      obtain ⟨-, e⟩ | ⟨v, hv, -⟩ | ⟨_, -, -, e⟩ | ⟨_, -, -, e⟩ | ⟨-, e⟩ := syncUnit_cases (σ m)
      · rw [e]; rfl
      · exact absurd hv (hw m v hm (Nat.lt_succ_self m) hs)
      · rw [e] at hen
        simp [resetCtrl] at hen
      · rw [e]; rfl
      · rw [e]; rfl
    · exact (run_frame h hc hs).2.1

/-- Settles O28: before the landing fewer than `r` steps are counted, so COMP is in force when COUNT arrives at
it. -/
theorem comparatorFiresUnderLeadTime : Obligations.ComparatorFiresUnderLeadTime := by
  refine ⟨fun s c r j after hr hl he hm hr32 hj hc hs hafter => ?_,
    fun τ σ a b e m f hrun hlead hp hcount hfree hland ht hsteps => ?_⟩
  · have hjr : j < r := by simpa [counterTurns, List.count_replicate] using hj
    obtain ⟨f, p, hbefore, -⟩ := runTurns_freeRun j hr hl he hm
    rw [List.append_assoc, runTurns_append _ hbefore, runTurns_append _ (runTurns_sync _ (by exact hr)),
      syncUnit_writeComp (by exact hs), hafter]
    set u := latch { { s with count := s.count + BitVec.ofNat 32 j, intflag := f, irqPend := p } with
      comp := c + BitVec.ofNat 32 r, syncOp := .none, syncbusy := false } with hu
    have hcr : u.count + BitVec.ofNat 32 (r - j) = u.comp := by
      simp only [hu, latch_count, latch_comp]
      rw [hc, BitVec.add_assoc, ← BitVec.ofNat_add, Nat.add_sub_cancel' (Nat.le_of_lt hjr)]
    obtain ⟨g, q, hend, hg⟩ := runTurns_freeRun (s := u) (r - j) hr hl he hm
    refine ⟨_, hend, rfl, hcr, ?_, rfl⟩
    have hlast : ∃ i < r - j, u.count + BitVec.ofNat 32 (i + 1) = u.comp :=
      ⟨r - j - 1, by omega, by rwa [show r - j - 1 + 1 = r - j by omega]⟩
    simp [hg, hlast]
  · obtain ⟨hbe, hte, hno⟩ := hp.lands
    have hab := hp.write.1
    have hne : e ≠ m := fun h => by rw [h, ht] at hte; cases hte
    have hem : e < m := by
      have hlt := hlead a b e f hp
      by_contra hge
      have hmono : counterSteps τ σ a (m + 1) ≤ counterSteps τ σ a e := counterSteps_mono (by omega)
      omega
    have hslot : (σ e).syncOp = .writeComp (f.c + BitVec.ofNat 32 f.r) := by
      rw [← writePath_posts hrun hp]
      exact run_slot_until hrun hbe (by simp [writePath_posts hrun hp]) fun k h1 h2 => hno k (by omega) h2
    have hcomp : (σ m).comp = f.c + BitVec.ofNat 32 f.r := by
      rw [run_comp hrun (show e + 1 ≤ m by omega) (fun k h1 h2 => (hfree k (by omega) h2).2.1)
        fun k v h1 h2 => hland k v (by omega) (by omega), run_sync hrun hte, syncUnit_writeComp hslot]
      rfl
    obtain ⟨hl, hen, hmc⟩ := hfree m (by omega) (Nat.le_refl m)
    have hnext : σ (m + 1) = latch (countFreeRun (σ m)) := by
      rw [run_counter hrun ht, counterAgent_freeRun hl hen hmc]
    have hone : counterSteps τ σ a m + 1 = f.r := by
      rw [← hsteps, counterSteps_succ (by omega)]
      simp [counterStep, ht, hen]
    have harrive : (σ m).count + 1 = (σ m).comp := by
      rw [run_count_steps hrun (show a ≤ m by omega) hfree, hcomp, hcount, ← hone, BitVec.add_assoc]
      exact congrArg (f.c + ·) (BitVec.ofNat_add _ 1).symm
    rw [hnext]
    have hflag : (σ m).count + 1#32 = (σ m).comp := harrive
    exact ⟨hem, hcomp, harrive, by simp [countFreeRun, flagsFreeRun, Flags.union, hflag]⟩

end Sys2Proof.Machine
end

section
/-! PROOF. Who writes what (10 sections 2 to 4, 60 R208 to R211): O15 to O22 and O24. Of every operation it is said once
which registers and variables it may write, and what it does to the contexts. -/

namespace Sys2Proof.Machine

/-! ### What holds of every next state that is answered -/

/-- If the answer is a next state, then `P` holds of it. -/
structure Answers (P : State → Prop) (o : Res) : Prop where
  of_next : ∀ t, o = .next t → P t

namespace Answers

variable {P : State → Prop} {s t : State}

theorem next (h : P t) : Answers P (.next t) := by
  refine ⟨?_⟩
  rintro _ ⟨⟩
  exact h

theorem fault (r : Fault) : Answers P (.fault r) := by
  refine ⟨?_⟩
  rintro _ ⟨⟩

/-- A step that holds until the slot takes its access. -/
theorem post {f : Frame} {op : SyncOp} {go : State → State} (hold : P (s.setCall (some f)))
    (h : P (go { s with syncOp := op, syncbusy := true })) : Answers P (orHold f s (postSync op s) go) := by
  refine ⟨fun t ht => ?_⟩
  obtain ⟨-, rfl⟩ | ⟨u, hu, rfl⟩ := orHold_cases ht
  · exact hold
  · rwa [(postSync_eq_some hu).2]

/-- A step that holds until the slot is empty. -/
theorem await {f : Frame} {go : State → State} (hold : P (s.setCall (some f))) (h : P (go s)) :
    Answers P (orHold f s (awaitSync s) go) := by
  refine ⟨fun t ht => ?_⟩
  obtain ⟨-, rfl⟩ | ⟨u, hu, rfl⟩ := orHold_cases ht
  · exact hold
  · rwa [(awaitSync_eq_some hu).2]

/-- An operation of the host, by its body at whatever frame it is performed. -/
theorem perform {i : Instr} {a : Option Reason} {body : Frame → State → Res} (hr : ∀ r, P (refuse r s))
    (hb : ∀ f, Answers P (body f s)) : Answers P (perform i a body s) := by
  refine ⟨fun t ht => ?_⟩
  obtain ⟨r, -, -, rfl⟩ | ⟨-, -, h⟩ | ⟨f, -, -, h⟩ := perform_cases ht
  · exact hr r
  · exact (hb _).of_next t h
  · exact (hb f).of_next t h

/-- A primitive, by its body at whatever frame it is performed. -/
theorem performPrimitive {i : Instr} {body : Frame → State → Res} (hr : ∀ r, P (refuse r s))
    (hb : ∀ f, Answers P (body f s)) : Answers P (performPrimitive i body s) := by
  refine ⟨fun t ht => ?_⟩
  obtain ⟨-, -, rfl⟩ | ⟨-, -, h⟩ | ⟨_, f, -, -, h⟩ := performPrimitive_cases ht
  · exact hr _
  · exact (hb _).of_next t h
  · exact (hb f).of_next t h

theorem oneStep {eff : State → State} {f : Frame} (h : P (eff s).endPrim) : Answers P (oneStep eff f s) := by
  refine ⟨fun t ht => ?_⟩
  obtain ⟨-, rfl⟩ := oneStep_cases ht
  exact h

theorem waitStep {eff : State → Option State} {f : Frame} (hold : P (s.storePrim f))
    (h : ∀ u, eff s = some u → P u.endPrim) : Answers P (waitStep eff f s) := by
  refine ⟨fun t ht => ?_⟩
  obtain ⟨-, ⟨-, rfl⟩ | ⟨u, -, hu, rfl⟩⟩ := waitStep_cases ht
  · exact hold
  · exact h u hu

end Answers

/-! ### The write set of each operation -/

/-- The registers and variables that only named operations write; of IRQ_PEND, IRQ_EN and INITED also the fact that
the bit is not cleared. -/
inductive Item where
  | lastMark | tickCount | target | inten | intflag | irqEn | irqLocked | inited | pendKept | enableKept | initedKept

/-- The item is as it was; for the last three, a bit that was 1 is 1. -/
def Item.kept (x : Item) (s t : State) : Prop :=
  match x with
  | .lastMark => t.lastMark = s.lastMark
  | .tickCount => t.tickCount = s.tickCount
  | .target => t.target = s.target
  | .inten => t.inten = s.inten
  | .intflag => t.intflag = s.intflag
  | .irqEn => t.irqEn = s.irqEn
  | .irqLocked => t.irqLocked = s.irqLocked
  | .inited => t.inited = s.inited
  | .pendKept => s.irqPend = true → t.irqPend = true
  | .enableKept => s.irqEn = true → t.irqEn = true
  | .initedKept => s.inited = true → t.inited = true

/-- The item of a software variable. -/
def varItem : Var → Item
  | .lastMark => .lastMark
  | .tickCount => .tickCount
  | .target => .target

/-- INIT's write set: all but the mask. -/
def initWrites : List Item :=
  [.lastMark, .tickCount, .target, .inten, .intflag, .irqEn, .inited, .pendKept, .enableKept]

/-- The items that the operation may not keep: its write set (10 sections 2 to 4). -/
def mayWrite : Instr → List Item
  | .init => initWrites
  | .setTimeoutP _ _ => [.target, .irqLocked]
  | .isrT => [.lastMark, .intflag]
  | .isrP => [.lastMark, .tickCount, .intflag]
  | .wrIntflag _ => [.intflag]
  | .wrIntenset _ => [.inten]
  | .wrIntenclr _ => [.inten]
  | .nvicClrpend => [.pendKept]
  | .nvicEnable => [.irqEn]
  | .nvicDisable => [.irqEn, .enableKept]
  | .irqLock => [.irqLocked]
  | .irqUnlock _ => [.irqLocked]
  | .stVar x _ => [varItem x]
  | _ => []

/-- The items outside `l` are kept. -/
structure WritesOnly (l : List Item) (s t : State) : Prop where
  kept : ∀ x, x ∉ l → x.kept s t

/-- A state that differs from `s` in no item. -/
theorem WritesOnly.of_eq {l : List Item} {s t : State} (hm : t.lastMark = s.lastMark := by rfl)
    (hk : t.tickCount = s.tickCount := by rfl) (hg : t.target = s.target := by rfl)
    (hn : t.inten = s.inten := by rfl) (hf : t.intflag = s.intflag := by rfl) (he : t.irqEn = s.irqEn := by rfl)
    (hl : t.irqLocked = s.irqLocked := by rfl) (hi : t.inited = s.inited := by rfl)
    (hp : s.irqPend = true → t.irqPend = true := by exact id) : WritesOnly l s t := by
  refine ⟨fun x _ => ?_⟩
  cases x with
  | lastMark => exact hm
  | tickCount => exact hk
  | target => exact hg
  | inten => exact hn
  | intflag => exact hf
  | irqEn => exact he
  | irqLocked => exact hl
  | inited => exact hi
  | pendKept => exact hp
  | enableKept => exact fun h => he.trans h
  | initedKept => exact fun h => hi.trans h

/-- Every item is in the write set or as it was. -/
theorem WritesOnly.of_mem {l : List Item} {s t : State}
    (hm : .lastMark ∈ l ∨ t.lastMark = s.lastMark := by simp)
    (hk : .tickCount ∈ l ∨ t.tickCount = s.tickCount := by simp)
    (hg : .target ∈ l ∨ t.target = s.target := by simp)
    (hn : .inten ∈ l ∨ t.inten = s.inten := by simp)
    (hf : .intflag ∈ l ∨ t.intflag = s.intflag := by simp)
    (he : .irqEn ∈ l ∨ t.irqEn = s.irqEn := by simp)
    (hl : .irqLocked ∈ l ∨ t.irqLocked = s.irqLocked := by simp)
    (hi : .inited ∈ l ∨ t.inited = s.inited := by simp)
    (hp : .pendKept ∈ l ∨ (s.irqPend = true → t.irqPend = true) := by simp)
    (hb : .enableKept ∈ l ∨ (s.irqEn = true → t.irqEn = true) := by simp)
    (hd : s.inited = true → t.inited = true := by simp) : WritesOnly l s t := by
  refine ⟨fun x hx => ?_⟩
  cases x with
  | lastMark => exact hm.resolve_left hx
  | tickCount => exact hk.resolve_left hx
  | target => exact hg.resolve_left hx
  | inten => exact hn.resolve_left hx
  | intflag => exact hf.resolve_left hx
  | irqEn => exact he.resolve_left hx
  | irqLocked => exact hl.resolve_left hx
  | inited => exact hi.resolve_left hx
  | pendKept => exact hp.resolve_left hx
  | enableKept => exact hb.resolve_left hx
  | initedKept => exact hd

theorem WritesOnly.trans {l : List Item} {s u t : State} (h : WritesOnly l s u) (h' : WritesOnly l u t) :
    WritesOnly l s t := by
  refine ⟨fun x hx => ?_⟩
  have hu := h.kept x hx
  have ht := h'.kept x hx
  cases x with
  | pendKept | enableKept | initedKept => exact ht ∘ hu
  | _ => exact Eq.trans ht hu

section
variable {l : List Item} {s : State} (f : Frame)

theorem WritesOnly.setCall (o : Option Frame) : WritesOnly l s (s.setCall o) := .of_eq

/-- INIT may not write the mask, nor clear INITED. -/
theorem WritesOnly.init {t : State} (h : t.irqLocked = s.irqLocked := by rfl)
    (hd : s.inited = true → t.inited = true := by exact id) :
    WritesOnly initWrites s t := by
  refine ⟨fun x hx => ?_⟩
  cases x with
  | irqLocked => exact h
  | initedKept => exact hd
  | _ => simp [initWrites] at hx

theorem initStep_writes : Answers (WritesOnly initWrites s) (initStep f s) := by
  unfold initStep
  split
  case h_8 | h_10 | h_12 | h_14 | h_16 | h_19 => exact .await (.setCall _) .of_eq
  case h_9 | h_11 | h_13 | h_18 => exact .post (.setCall _) .of_eq
  case h_15 =>
    split
    · exact .post (.setCall _) .of_eq
    · exact .next .of_eq
  case h_21 => exact .next (.init (hd := fun _ => rfl))
  case h_22 => exact .fault _
  all_goals exact .next .init

theorem setTimeoutTStep_writes (ticks : Word) : Answers (WritesOnly l s) (setTimeoutTStep ticks f s) := by
  unfold setTimeoutTStep
  split
  case h_1 => exact .next .of_eq
  case h_2 | h_6 => exact .post (.setCall _) .of_eq
  case h_3 | h_5 => exact .await (.setCall _) .of_eq
  case h_4 =>
    split
    · exact .next (.of_eq (hp := fun _ => rfl))
    · exact .next .of_eq
  case h_7 => exact .fault _

theorem setTimeoutPStep_writes (ticks : Word) :
    Answers (WritesOnly [.target, .irqLocked] s) (setTimeoutPStep ticks f s) := by
  unfold setTimeoutPStep
  split
  case h_1 =>
    split
    · exact .next (.of_eq (hp := fun _ => rfl))
    · exact .next .of_mem
  case h_3 =>
    split
    · exact .next .of_mem
    · exact .next .of_mem
  case h_2 => exact .next .of_eq
  case h_4 => exact .next .of_mem
  case h_5 => exact .fault _

theorem queryElapsedTStep_writes : Answers (WritesOnly l s) (queryElapsedTStep f s) := by
  unfold queryElapsedTStep
  split
  · exact .next .of_eq
  · exact .post (.setCall _) .of_eq
  · exact .await (.setCall _) .of_eq
  · exact .next .of_eq
  · exact .fault _

theorem queryElapsedPStep_writes : Answers (WritesOnly l s) (queryElapsedPStep f s) := by
  unfold queryElapsedPStep
  split
  · exact .next .of_eq
  · exact .next .of_eq
  · exact .fault _

theorem idleExitTStep_writes : Answers (WritesOnly l s) (idleExitTStep f s) := by
  unfold idleExitTStep
  split
  · exact .next .of_eq
  · exact .fault _

theorem idleExitPStep_writes : Answers (WritesOnly l s) (idleExitPStep f s) := by
  unfold idleExitPStep
  split
  · exact .next .of_eq
  · exact .fault _

theorem execAnnounce_writes (n : Word) : Answers (WritesOnly l s) (execAnnounce n s) := by
  unfold execAnnounce
  split
  · exact .next .of_eq
  · split
    · exact .fault _
    · split
      · exact .next .of_eq
      · exact .next .of_eq
      · exact .fault _
  · exact .fault _

theorem callAnnounce_writes (n : Word) : Answers (WritesOnly l s) (callAnnounce n f s) :=
  have h := execAnnounce_writes (s := { s with seqIsr := some f, seqAnn := some (Frame.start (.announce n)) }) n
  ⟨fun t ht => .trans .of_eq (h.of_next t ht)⟩

/-- IRET may set IRQ_PEND, by the level. -/
theorem execIret_writes : Answers (WritesOnly l s) (execIret s) := by
  unfold execIret
  split
  · exact .next .of_eq
  · exact .next .of_eq
  · exact .next (.of_eq (hp := fun h => by simp [h]))
  · exact .fault _

theorem isrTStep_writes : Answers (WritesOnly [.lastMark, .intflag] s) (isrTStep f s) := by
  unfold isrTStep
  split
  case h_2 | h_7 => exact .next .of_mem
  case h_3 =>
    split
    · exact .next .of_eq
    · next u hu =>
      obtain ⟨-, rfl⟩ := postSync_eq_some hu
      exact .next .of_eq
  case h_4 =>
    split
    · exact .next .of_eq
    · next u hu =>
      obtain ⟨-, rfl⟩ := awaitSync_eq_some hu
      exact .next .of_eq
  case h_6 => exact callAnnounce_writes _ _
  case h_8 =>
    split
    · exact callAnnounce_writes _ _
    · exact .next .of_eq
  case h_9 => exact execIret_writes
  case h_10 => exact .fault _
  all_goals exact .next .of_eq

theorem isrPStep_writes : Answers (WritesOnly [.lastMark, .tickCount, .intflag] s) (isrPStep f s) := by
  unfold isrPStep
  split
  case h_2 | h_3 | h_6 => exact .next .of_mem
  case h_5 | h_7 => exact callAnnounce_writes _ _
  case h_8 => exact execIret_writes
  case h_9 => exact .fault _
  all_goals exact .next .of_eq

end

section
variable {l : List Item} {s t : State}

/-- The steps of RD_COUNT write the slot, `dest` and the primitives in flight. -/
theorem rdCountStep_writes (f : Frame) : Answers (WritesOnly l s) (rdCountStep f s) := by
  refine ⟨fun t ht => ?_⟩
  unfold rdCountStep at ht
  split at ht
  · obtain ⟨-, rfl⟩ | ⟨u, hu, rfl⟩ := orWait_cases ht
    · exact .of_eq
    · obtain ⟨-, rfl⟩ := postSync_eq_some (inOrder_eq_some hu).2
      exact .of_eq
  · obtain ⟨-, rfl⟩ | ⟨u, hu, rfl⟩ := orWait_cases ht
    · exact .of_eq
    · obtain ⟨-, rfl⟩ := awaitSync_eq_some hu
      exact .of_eq
  · cases ht

theorem postStep_writes (op : SyncOp) (f : Frame) : Answers (WritesOnly l s) (waitStep (postSync op) f s) :=
  .waitStep .of_eq fun u hu => by
    obtain ⟨-, rfl⟩ := postSync_eq_some hu
    exact .of_eq

/-- Every operation writes only what its write set names, whoever performs it. -/
theorem exec_writes (i : Instr) (s : State) : Answers (WritesOnly (mayWrite i) s) (exec i s) := by
  have hr (l : List Item) (r : Reason) : WritesOnly l s (refuse r s) := .of_eq
  cases i with
  | init => exact .perform (hr _) initStep_writes
  | setTimeoutT ticks _ => exact .perform (hr _) fun f => setTimeoutTStep_writes f ticks
  | setTimeoutP ticks b => exact .perform (hr _) fun f => setTimeoutPStep_writes f ticks
  | queryElapsedT => exact .perform (hr _) queryElapsedTStep_writes
  | queryElapsedP => exact .perform (hr _) queryElapsedPStep_writes
  | idleExitT => exact .perform (hr _) idleExitTStep_writes
  | idleExitP => exact .perform (hr _) idleExitPStep_writes
  | isrT =>
    simp only [exec, execIsrT]
    split
    · exact .next .of_eq
    · split
      · exact .fault _
      · exact isrTStep_writes _
    · exact .fault _
  | isrP =>
    simp only [exec, execIsrP]
    split
    · exact .next .of_eq
    · split
      · exact .fault _
      · exact isrPStep_writes _
    · exact .fault _
  | announce n => exact execAnnounce_writes n
  | iret => exact execIret_writes
  | rdCount => exact .performPrimitive (hr _) rdCountStep_writes
  | wrComp v => exact .performPrimitive (hr _) (postStep_writes _)
  | waitSync =>
    refine .performPrimitive (hr _) fun f => .waitStep .of_eq fun u hu => ?_
    obtain ⟨-, rfl⟩ := awaitSync_eq_some hu
    exact .of_eq
  | wrCtrl c =>
    refine .performPrimitive (hr _) fun f => ?_
    unfold wrCtrlStep
    split
    · exact postStep_writes _ f
    · exact .next .of_eq
  | irqUnlock key =>
    refine .performPrimitive (hr _) fun f => ?_
    unfold irqUnlockStep
    split
    · exact .oneStep (.of_mem (l := [.irqLocked]))
    · exact .next .of_eq
  | stVar x v =>
    refine .performPrimitive (hr _) fun f => .oneStep ?_
    cases x with
    | lastMark => exact .of_mem (l := [.lastMark])
    | tickCount => exact .of_mem (l := [.tickCount])
    | target => exact .of_mem (l := [.target])
  | nvicSetpend => exact .performPrimitive (hr _) fun f => .oneStep (.of_eq (hp := fun _ => rfl))
  | wrIntflag => exact .performPrimitive (hr _) fun f => .oneStep (.of_mem (l := [.intflag]))
  | wrIntenset | wrIntenclr => exact .performPrimitive (hr _) fun f => .oneStep (.of_mem (l := [.inten]))
  | nvicClrpend => exact .performPrimitive (hr _) fun f => .oneStep (.of_mem (l := [.pendKept]))
  | nvicEnable => exact .performPrimitive (hr _) fun f => .oneStep (.of_mem (l := [.irqEn]))
  | nvicDisable => exact .performPrimitive (hr _) fun f => .oneStep (.of_mem (l := [.irqEn, .enableKept]))
  | irqLock => exact .performPrimitive (hr _) fun f => .oneStep (.of_mem (l := [.irqLocked]))
  | rdComp | rdSyncbusy | rdIntflag | rdInten | rdCtrl | ldVar =>
    exact .performPrimitive (hr _) fun f => .oneStep .of_eq

end

end Sys2Proof.Machine
end

section
/-! PROOF. What each step may change (10 sections 2 to 4): O15, O16, O20, O21 and O22. -/

namespace Sys2Proof.Machine

/-! ### The four kinds of step -/

/-- No register of the peripheral or the controller changes but IRQ_PEND, no variable and no build parameter; LOG may
gain events. -/
structure Aside (s t : State) : Prop where
  cfg : t.cfg = s.cfg := by rfl
  count : t.count = s.count := by rfl
  comp : t.comp = s.comp := by rfl
  ctrl : t.ctrl = s.ctrl := by rfl
  swrstLanded : t.swrstLanded = s.swrstLanded := by rfl
  writes : WritesOnly [.pendKept] s t := by exact .of_mem
  log : ∃ es, t.log = s.log ++ es := by exact ⟨[], (List.append_nil _).symm⟩

theorem aside_refuse (s : State) (r : Reason) : Aside s (refuse r s) where
  log := ⟨_, rfl⟩

theorem aside_interruptEntry (s : State) : Aside s (interruptEntry s) := by
  obtain ⟨-, e⟩ | ⟨-, e⟩ := interruptEntry_cases s
  · rw [e]
    exact {}
  · rw [e]
    exact {}

theorem aside_hostReturns (s : State) : Aside s (hostReturns s) := by
  obtain ⟨-, -, e⟩ | e := hostReturns_cases s
  · rw [e]
    exact {}
  · rw [e]
    exact {}

/-- The latch writes IRQ_PEND only. -/
theorem Aside.latched {s t : State} (h : Aside s t) : Aside s (latch t) where
  cfg := h.cfg
  count := h.count
  comp := h.comp
  ctrl := h.ctrl
  swrstLanded := h.swrstLanded
  writes := h.writes.trans .of_mem
  log := h.log

/-- A step performs an operation, or moves the counter or the synchronisation unit, or neither. -/
inductive StepKind (s s' : State) : Prop where
  | performs (i : Instr) (x : Issuer) (u : State) (hi : s.performed = some i)
      (he : exec i { (nextTurn s).2 with issuer := x } = .next u) (hs : s' = latch u)
  | counts (ht : (nextTurn s).1 = .counter) (hs : s' = latch (counterAgent (nextTurn s).2))
  | lands (ht : (nextTurn s).1 = .sync) (hs : s' = latch (syncUnit (nextTurn s).2))
  | aside (h : Aside (nextTurn s).2 s')

theorem step_kind {s s' : State} (h : step s = .next s') : StepKind s s' := by
  obtain ⟨-, ⟨-, rfl⟩ | ⟨-, u, rfl, hu⟩⟩ := step_turns h
  · obtain ⟨ts, k, e⟩ := nextTurn_state s
    refine .aside ?_
    rw [e]
    exact { log := ⟨_, rfl⟩ }
  obtain ⟨w, e, -, -, -, rfl⟩ | ⟨w, i, -, -, hi, he⟩ | ⟨i, -, -, hi, he⟩ | ⟨-, -, -, rfl⟩ |
    ⟨n, i, -, -, hi, he⟩ | ⟨n, -, -, -, rfl⟩ | ⟨ht, -, rfl⟩ | ⟨ht, -, rfl⟩ | ⟨-, -, rfl⟩ |
    ⟨-, -, rfl⟩ := hu
  · exact .aside (aside_refuse _ _).latched
  · exact .performs i _ u hi he rfl
  · exact .performs i _ u hi he rfl
  · exact .aside (Aside.latched {})
  · exact .performs i _ u hi he rfl
  · exact .aside (Aside.latched {})
  · exact .counts ht rfl
  · exact .lands ht rfl
  · exact .aside (aside_interruptEntry _).latched
  · exact .aside (aside_hostReturns _).latched

/-- The operations that may not keep the item (10 sections 2 to 4). -/
def Item.Writer : Item → Instr → Prop
  | .lastMark, i => i = .init ∨ i = .isrT ∨ i = .isrP ∨ ∃ v, i = .stVar .lastMark v
  | .tickCount, i => i = .init ∨ i = .isrP ∨ ∃ v, i = .stVar .tickCount v
  | .target, i => i = .init ∨ (∃ t b, i = .setTimeoutP t b) ∨ ∃ v, i = .stVar .target v
  | .inten, i => (∃ f, i = .wrIntenset f) ∨ (∃ f, i = .wrIntenclr f) ∨ i = .init
  | .intflag, i => i = .init ∨ i = .isrT ∨ i = .isrP ∨ ∃ f, i = .wrIntflag f
  | .irqEn, i => i = .nvicEnable ∨ i = .nvicDisable ∨ i = .init
  | .irqLocked, i => i = .irqLock ∨ (∃ k, i = .irqUnlock k) ∨ ∃ t b, i = .setTimeoutP t b
  | .inited, i => i = .init
  | .pendKept, i => i = .init ∨ i = .nvicClrpend
  | .enableKept, i => i = .init ∨ i = .nvicDisable
  | .initedKept, _ => False

/-- The write sets, read from the items' side. -/
theorem writer_of_mem {x : Item} {i : Instr} (h : x ∈ mayWrite i) : x.Writer i := by
  cases i with
  | init =>
    have hx : x ∈ initWrites := h
    cases x with
    | irqLocked | initedKept => simp [initWrites] at hx
    | _ => simp [Item.Writer]
  | setTimeoutP =>
    obtain rfl | rfl := List.mem_pair.1 h
    all_goals simp [Item.Writer]
  | isrT =>
    obtain rfl | rfl := List.mem_pair.1 h
    all_goals simp [Item.Writer]
  | isrP =>
    obtain rfl | hx := List.mem_cons.1 h
    · simp [Item.Writer]
    obtain rfl | rfl := List.mem_pair.1 hx
    all_goals simp [Item.Writer]
  | nvicDisable =>
    obtain rfl | rfl := List.mem_pair.1 h
    all_goals simp [Item.Writer]
  | stVar y =>
    obtain rfl := List.mem_singleton.1 h
    cases y <;> simp [Item.Writer, varItem]
  | wrIntflag | wrIntenset | wrIntenclr | nvicClrpend | nvicEnable | irqLock | irqUnlock =>
    obtain rfl := List.mem_singleton.1 h
    simp [Item.Writer]
  | _ => exact absurd h List.not_mem_nil

/-- An operation keeps every item of which it is no writer. -/
theorem exec_kept {i : Instr} {s t : State} (h : exec i s = .next t) (x : Item) (hx : ¬ x.Writer i) : x.kept s t :=
  ((exec_writes i s).of_next t h).kept x fun hm => hx (writer_of_mem hm)

/-! ### LOG, the build and the bits that are never cleared -/

/-- Settles O15: an operation appends, and so does a refusal. -/
theorem logOnlyGrows : Obligations.LogOnlyGrows := by
  intro s s' h
  cases step_kind h with
  | performs i x u hi he hs =>
    obtain ⟨es, hl⟩ := (exec_keeps he).log
    exact ⟨es, by simpa [hs] using hl⟩
  | counts ht hs =>
    obtain ⟨n, f, k, e⟩ := counterAgent_frame (nextTurn s).2
    exact ⟨[], by simp [hs, e]⟩
  | lands ht hs =>
    refine ⟨[], ?_⟩
    obtain ⟨-, e⟩ | ⟨_, -, e⟩ | ⟨_, -, -, e⟩ | ⟨_, -, -, e⟩ | ⟨-, e⟩ := syncUnit_cases (nextTurn s).2
    all_goals simp [hs, e]
  | aside h =>
    obtain ⟨es, hl⟩ := h.log
    exact ⟨es, by simpa using hl⟩

/-- Settles O16. -/
theorem configurationIsFixed : Obligations.ConfigurationIsFixed := by
  intro s s' h
  cases step_kind h with
  | performs i x u hi he hs =>
    have hk := exec_keeps he
    have hd := exec_kept he .initedKept id
    subst hs
    exact ⟨by simpa using hk.cfg, by simpa [Item.kept] using hd, by simp [hk.swrstLanded]⟩
  | counts ht hs =>
    obtain ⟨n, f, k, e⟩ := counterAgent_frame (nextTurn s).2
    simp [hs, e]
  | lands ht hs =>
    obtain ⟨-, e⟩ | ⟨_, -, e⟩ | ⟨_, -, -, e⟩ | ⟨_, -, -, e⟩ | ⟨-, e⟩ := syncUnit_cases (nextTurn s).2
    all_goals simp [hs, e]
  | aside h =>
    have hd := h.writes.kept .initedKept (by simp)
    exact ⟨by simpa using h.cfg, by simpa [Item.kept] using hd, by simp [h.swrstLanded]⟩

/-! ### Who writes COUNT, COMP, CTRL and the rest -/

/-- Settles O20: no operation writes COUNT. -/
theorem countHasOnlyHardwareWriters : Obligations.CountHasOnlyHardwareWriters := by
  intro s s' h hne
  cases step_kind h with
  | performs i x u hi he hs =>
    subst hs
    exact absurd (by simpa using (exec_keeps he).count) hne
  | counts ht hs => exact .inl ht
  | lands ht hs =>
    obtain ⟨-, e⟩ | ⟨_, -, e⟩ | ⟨c, hc, hr, -⟩ | ⟨_, -, -, e⟩ | ⟨-, e⟩ := syncUnit_cases (nextTurn s).2
    case inr.inr.inl => exact .inr ⟨ht, c, by simpa using hc, hr⟩
    all_goals exact absurd (by simp [hs, e]) hne
  | aside h => exact absurd (by simpa using h.count) hne

/-- What a step does to an item: it performs a writer of it, or the synchronisation unit resets the peripheral, or
the item is INTFLAG or IRQ_PEND and the counter or entry moves it, or it is kept. -/
theorem step_item {s s' : State} (h : step s = .next s') (x : Item) (hf : x ≠ .intflag) (hp : x ≠ .pendKept) :
    (∃ i, s.performed = some i ∧ x.Writer i) ∨
    ((nextTurn s).1 = .sync ∧ x = .inten ∧ ∃ c, s.syncOp = .writeCtrl c ∧ c.swrst = true) ∨ x.kept s s' := by
  obtain ⟨ts, k, hn⟩ := nextTurn_state s
  cases step_kind h with
  | performs i y u hi he hs =>
    by_cases hw : x.Writer i
    · exact .inl ⟨i, hi, hw⟩
    have hx := exec_kept he x hw
    rw [hn] at hx
    subst hs
    cases x with
    | pendKept => exact absurd rfl hp
    | _ => exact .inr (.inr hx)
  | counts ht hs =>
    obtain ⟨n, f, k, e⟩ := counterAgent_frame (nextTurn s).2
    rw [hs, e, hn]
    cases x with
    | intflag => exact absurd rfl hf
    | pendKept => exact absurd rfl hp
    | enableKept | initedKept => exact .inr (.inr id)
    | _ => exact .inr (.inr rfl)
  | lands ht hs =>
    have hc (c : Ctrl) : (nextTurn s).2.syncOp = .writeCtrl c → s.syncOp = .writeCtrl c := by simp
    by_cases hr : ∃ c, s.syncOp = .writeCtrl c ∧ c.swrst = true ∧ x = .inten
    · obtain ⟨c, h1, h2, h3⟩ := hr
      exact .inr (.inl ⟨ht, h3, c, h1, h2⟩)
    refine .inr (.inr ?_)
    rw [hs]
    obtain ⟨-, e⟩ | ⟨_, -, e⟩ | ⟨c, h1, h2, e⟩ | ⟨_, -, -, e⟩ | ⟨-, e⟩ := syncUnit_cases (nextTurn s).2
    case inr.inr.inl =>
      rw [e, hn]
      cases x with
      | intflag => exact absurd rfl hf
      | pendKept => exact absurd rfl hp
      | inten => exact absurd ⟨c, hc c h1, h2, rfl⟩ hr
      | enableKept | initedKept => exact id
      | _ => rfl
    all_goals
      rw [e, hn]
      cases x with
      | pendKept => exact absurd rfl hp
      | enableKept | initedKept => exact id
      | _ => rfl
  | aside h =>
    have hx := h.writes.kept x (by simpa using hp)
    rw [hn] at hx
    cases x with
    | pendKept => exact absurd rfl hp
    | _ => exact .inr (.inr hx)

/-- Settles O21: the writers of the variables. -/
theorem variablesHaveNamedWriters : Obligations.VariablesHaveNamedWriters := by
  intro s s' h
  refine ⟨fun hne => ?_, fun hne => ?_, fun hne => ?_⟩
  · obtain ⟨i, hi, hw⟩ | ⟨-, hx, -⟩ | hx := step_item h .lastMark (by simp) (by simp)
    · simp only [hi, Option.some.injEq]
      exact hw
    · cases hx
    · exact absurd hx hne
  · obtain ⟨i, hi, hw⟩ | ⟨-, hx, -⟩ | hx := step_item h .tickCount (by simp) (by simp)
    · simp only [hi, Option.some.injEq]
      exact hw
    · cases hx
    · exact absurd hx hne
  · obtain ⟨i, hi, hw⟩ | ⟨-, hx, -⟩ | hx := step_item h .target (by simp) (by simp)
    · simp only [hi, Option.some.injEq]
      exact hw
    · cases hx
    · exact absurd hx hne

/-- COMP and CTRL are written by the synchronisation unit only. -/
theorem step_comp_ctrl {s s' : State} (h : step s = .next s') :
    (s'.comp = s.comp ∧ s'.ctrl = s.ctrl) ∨ (nextTurn s).1 = .sync ∧ s' = latch (syncUnit (nextTurn s).2) := by
  cases step_kind h with
  | performs i x u hi he hs =>
    subst hs
    exact .inl ⟨by simpa using (exec_keeps he).comp, by simpa using (exec_keeps he).ctrl⟩
  | counts ht hs =>
    obtain ⟨n, f, k, e⟩ := counterAgent_frame (nextTurn s).2
    exact .inl (by simp [hs, e])
  | lands ht hs => exact .inr ⟨ht, hs⟩
  | aside h => exact .inl ⟨by simpa using h.comp, by simpa using h.ctrl⟩

/-- Settles O22: the writers of the registers. -/
theorem registersHaveNamedWriters : Obligations.RegistersHaveNamedWriters := by
  intro s s' h
  refine ⟨fun hne => ?_, fun hne => ?_, fun hne => ?_, fun hne => ?_, fun hne => ?_, fun hne => ?_⟩
  · obtain ⟨hc, -⟩ | ⟨ht, hs⟩ := step_comp_ctrl h
    · exact absurd hc hne
    refine ⟨ht, fun hn => hne ?_, fun hn => hne ?_⟩
    · simp [hs, syncUnit_empty (s := (nextTurn s).2) (by simpa using hn)]
    · simp [hs, syncUnit_readCount (s := (nextTurn s).2) (by simpa using hn)]
  · obtain ⟨-, hc⟩ | ⟨ht, hs⟩ := step_comp_ctrl h
    · exact absurd hc hne
    refine ⟨ht, ?_⟩
    obtain ⟨-, e⟩ | ⟨_, -, e⟩ | ⟨c, hc, -⟩ | ⟨c, hc, -⟩ | ⟨-, e⟩ := syncUnit_cases (nextTurn s).2
    · exact absurd (by simp [hs, e]) hne
    · exact absurd (by simp [hs, e]) hne
    · exact ⟨c, by simpa using hc⟩
    · exact ⟨c, by simpa using hc⟩
    · exact absurd (by simp [hs, e]) hne
  · obtain ⟨i, hi, hw⟩ | ⟨ht, -, hc⟩ | hx := step_item h .inten (by simp) (by simp)
    · obtain ⟨f, rfl⟩ | ⟨f, rfl⟩ | rfl := hw
      · exact .inl ⟨f, hi⟩
      · exact .inr (.inl ⟨f, hi⟩)
      · exact .inr (.inr (.inl hi))
    · exact .inr (.inr (.inr ⟨ht, hc⟩))
    · exact absurd hx hne
  · obtain ⟨i, hi, hw⟩ | ⟨-, hx, -⟩ | hx := step_item h .irqEn (by simp) (by simp)
    · simp only [hi, Option.some.injEq]
      exact hw
    · cases hx
    · exact absurd hx hne
  · obtain ⟨i, hi, hw⟩ | ⟨-, hx, -⟩ | hx := step_item h .irqLocked (by simp) (by simp)
    · simp only [hi, Option.some.injEq]
      exact hw
    · cases hx
    · exact absurd hx hne
  · obtain ⟨i, hi, hw⟩ | ⟨-, hx, -⟩ | hx := step_item h .inited (by simp) (by simp)
    · simp only [hi, Option.some.injEq]
      exact hw
    · cases hx
    · exact absurd hx hne

end Sys2Proof.Machine
end

section
/-! PROOF. The two contexts (10 R39, 43 R185, 60 R208 to R213): O17, O18, O19 and O24. -/

namespace Sys2Proof.Machine

/-! ### What an operation does to the contexts -/

/-- The context is as it was; in interrupt context the normal context's position is too, and, unless a test
program's primitive is performed, so are the primitives and `dest`. -/
structure SameContext (s t : State) : Prop where
  ctx : t.ctx = s.ctx
  frozen : s.ctx = .isr → t.seqNormal = s.seqNormal
  aside : s.ctx = .isr → (∀ n, s.issuer ≠ .program n) → t.prims = s.prims ∧ t.dest = s.dest

/-- The normal context's part is not touched. -/
theorem SameContext.of_eq {s t : State} (hc : t.ctx = s.ctx := by rfl) (hn : t.seqNormal = s.seqNormal := by rfl)
    (hp : t.prims = s.prims := by rfl) (hd : t.dest = s.dest := by rfl) : SameContext s t :=
  ⟨hc, fun _ => hn, fun _ _ => ⟨hp, hd⟩⟩

/-- The call's position is stored where the context keeps it. -/
theorem SameContext.of_call {s t : State} (o : Option Frame) (hc : t.ctx = s.ctx := by rfl)
    (hn : t.seqNormal = (s.setCall o).seqNormal := by rfl) (hp : t.prims = s.prims := by rfl)
    (hd : t.dest = s.dest := by rfl) : SameContext s t :=
  ⟨hc, fun h => by simp [hn, h], fun _ _ => ⟨hp, hd⟩⟩

/-- The handler returns to normal context: IRET, or the last step of a handler. -/
structure Returned (i : Instr) (s t : State) : Prop where
  eq : t = returnFromInterrupt s
  by_sequencer : s.issuer = .sequencer
  from_isr : s.ctx = .isr
  last : i = .iret ∨ ∃ f, s.seqIsr = some f ∧ ((i = .isrT ∧ f.k = 9) ∨ (i = .isrP ∧ f.k = 8))

section
variable {s : State} (f : Frame)

theorem SameContext.setCall (o : Option Frame) : SameContext s (s.setCall o) := .of_call o

theorem initStep_context : Answers (SameContext s) (initStep f s) := by
  unfold initStep
  split
  case h_8 | h_10 | h_12 | h_14 | h_16 | h_19 => exact .await (.setCall _) (.of_call _)
  case h_9 | h_11 | h_13 | h_18 => exact .post (.setCall _) (.of_call _)
  case h_15 =>
    split
    · exact .post (.setCall _) (.of_call _)
    · exact .next (.of_call _)
  case h_22 => exact .fault _
  all_goals exact .next (.of_call _)

theorem setTimeoutTStep_context (ticks : Word) : Answers (SameContext s) (setTimeoutTStep ticks f s) := by
  unfold setTimeoutTStep
  split
  case h_1 => exact .next (.of_call _)
  case h_2 | h_6 => exact .post (.setCall _) (.of_call _)
  case h_3 | h_5 => exact .await (.setCall _) (.of_call _)
  case h_4 =>
    split
    · exact .next (.of_call _)
    · exact .next (.of_call _)
  case h_7 => exact .fault _

theorem setTimeoutPStep_context (ticks : Word) : Answers (SameContext s) (setTimeoutPStep ticks f s) := by
  unfold setTimeoutPStep
  split
  case h_1 | h_3 =>
    split
    · exact .next (.of_call _)
    · exact .next (.of_call _)
  case h_2 | h_4 => exact .next (.of_call _)
  case h_5 => exact .fault _

theorem queryElapsedTStep_context : Answers (SameContext s) (queryElapsedTStep f s) := by
  unfold queryElapsedTStep
  split
  · exact .next (.of_call _)
  · exact .post (.setCall _) (.of_call _)
  · exact .await (.setCall _) (.of_call _)
  · exact .next (.of_call _)
  · exact .fault _

theorem queryElapsedPStep_context : Answers (SameContext s) (queryElapsedPStep f s) := by
  unfold queryElapsedPStep
  split
  · exact .next (.of_call _)
  · exact .next (.of_call _)
  · exact .fault _

theorem idleExitTStep_context : Answers (SameContext s) (idleExitTStep f s) := by
  unfold idleExitTStep
  split
  · exact .next (.of_call _)
  · exact .fault _

theorem idleExitPStep_context : Answers (SameContext s) (idleExitPStep f s) := by
  unfold idleExitPStep
  split
  · exact .next (.of_call _)
  · exact .fault _

theorem execAnnounce_context (n : Word) : Answers (SameContext s) (execAnnounce n s) := by
  unfold execAnnounce
  split
  · exact .next .of_eq
  · split
    · exact .fault _
    · split
      · exact .next .of_eq
      · exact .next .of_eq
      · exact .fault _
  · exact .fault _

theorem callAnnounce_context (n : Word) : Answers (SameContext s) (callAnnounce n f s) := by
  refine ⟨fun t ht => ?_⟩
  obtain ⟨hc, hn, hp⟩ :=
    (execAnnounce_context (s := { s with seqIsr := some f, seqAnn := some (Frame.start (.announce n)) }) n).of_next t ht
  exact ⟨hc, hn, hp⟩

theorem execIret_context {i : Instr}
    (hi : s.ctx = .isr → s.issuer = .sequencer → Returned i s (returnFromInterrupt s)) :
    Answers (fun t => SameContext s t ∨ Returned i s t) (execIret s) := by
  unfold execIret
  split
  · exact .next (.inl .of_eq)
  · exact .next (.inl .of_eq)
  · next hx hc => exact .next (.inr (hi hc hx))
  · exact .fault _

theorem Answers.mono {P Q : State → Prop} {o : Res} (h : Answers P o) (hpq : ∀ t, P t → Q t) : Answers Q o :=
  ⟨fun t ht => hpq t (h.of_next t ht)⟩

theorem isrTStep_context (hs : s.issuer = .sequencer) (hf : s.seqIsr = some f) :
    Answers (fun t => SameContext s t ∨ Returned .isrT s t) (isrTStep f s) := by
  unfold isrTStep
  split
  case h_3 =>
    split
    · exact .next (.inl .of_eq)
    · next u hu =>
      obtain ⟨-, rfl⟩ := postSync_eq_some hu
      exact .next (.inl .of_eq)
  case h_4 =>
    split
    · exact .next (.inl .of_eq)
    · next u hu =>
      obtain ⟨-, rfl⟩ := awaitSync_eq_some hu
      exact .next (.inl .of_eq)
  case h_6 => exact (callAnnounce_context _ _).mono fun _ => .inl
  case h_8 =>
    split
    · exact (callAnnounce_context _ _).mono fun _ => .inl
    · exact .next (.inl .of_eq)
  case h_9 hk => exact execIret_context fun hc _ => ⟨rfl, hs, hc, .inr ⟨f, hf, .inl ⟨rfl, hk⟩⟩⟩
  case h_10 => exact .fault _
  all_goals exact .next (.inl .of_eq)

theorem isrPStep_context (hs : s.issuer = .sequencer) (hf : s.seqIsr = some f) :
    Answers (fun t => SameContext s t ∨ Returned .isrP s t) (isrPStep f s) := by
  unfold isrPStep
  split
  case h_5 | h_7 => exact (callAnnounce_context _ _).mono fun _ => .inl
  case h_8 hk => exact execIret_context fun hc _ => ⟨rfl, hs, hc, .inr ⟨f, hf, .inr ⟨rfl, hk⟩⟩⟩
  case h_9 => exact .fault _
  all_goals exact .next (.inl .of_eq)

end

section
variable {s : State}

/-- A primitive of a test program leaves the context alone; in interrupt context the host's is refused. -/
theorem performPrimitive_context {i : Instr} {body : Frame → State → Res}
    (hb : ∀ f, Answers (fun t => t.ctx = s.ctx ∧ t.seqNormal = s.seqNormal) (body f s)) :
    Answers (SameContext s) (performPrimitive i body s) := by
  refine ⟨fun t ht => ?_⟩
  obtain ⟨-, -, rfl⟩ | ⟨-, hn, h⟩ | ⟨n, f, hx, -, h⟩ := performPrimitive_cases ht
  · exact .of_eq
  · obtain ⟨hc, hq⟩ := (hb _).of_next t h
    exact ⟨hc, fun _ => hq, fun hi => by rw [hn] at hi; cases hi⟩
  · obtain ⟨hc, hq⟩ := (hb _).of_next t h
    exact ⟨hc, fun _ => hq, fun _ hp => absurd hx (hp n)⟩

theorem rdCountStep_context (f : Frame) :
    Answers (fun t => t.ctx = s.ctx ∧ t.seqNormal = s.seqNormal) (rdCountStep f s) := by
  refine ⟨fun t ht => ?_⟩
  unfold rdCountStep at ht
  split at ht
  · obtain ⟨-, rfl⟩ | ⟨u, hu, rfl⟩ := orWait_cases ht
    · exact ⟨rfl, rfl⟩
    · obtain ⟨-, rfl⟩ := postSync_eq_some (inOrder_eq_some hu).2
      exact ⟨rfl, rfl⟩
  · obtain ⟨-, rfl⟩ | ⟨u, hu, rfl⟩ := orWait_cases ht
    · exact ⟨rfl, rfl⟩
    · obtain ⟨-, rfl⟩ := awaitSync_eq_some hu
      exact ⟨rfl, rfl⟩
  · cases ht

theorem postStep_context (op : SyncOp) (f : Frame) :
    Answers (fun t => t.ctx = s.ctx ∧ t.seqNormal = s.seqNormal) (waitStep (postSync op) f s) :=
  .waitStep ⟨rfl, rfl⟩ fun u hu => by
    obtain ⟨-, rfl⟩ := postSync_eq_some hu
    exact ⟨rfl, rfl⟩

/-- Every operation stays in its context, or is the handler's return; in interrupt context it leaves what belongs to
the normal context. -/
theorem exec_context (i : Instr) (s : State) : Answers (fun t => SameContext s t ∨ Returned i s t) (exec i s) := by
  have hr (r : Reason) : SameContext s (refuse r s) := .of_eq
  have stays {o : Res} (h : Answers (SameContext s) o) : Answers (fun t => SameContext s t ∨ Returned i s t) o :=
    h.mono fun _ => .inl
  cases i with
  | init => exact stays (.perform hr initStep_context)
  | setTimeoutT ticks _ => exact stays (.perform hr fun f => setTimeoutTStep_context f ticks)
  | setTimeoutP ticks _ => exact stays (.perform hr fun f => setTimeoutPStep_context f ticks)
  | queryElapsedT => exact stays (.perform hr queryElapsedTStep_context)
  | queryElapsedP => exact stays (.perform hr queryElapsedPStep_context)
  | idleExitT => exact stays (.perform hr idleExitTStep_context)
  | idleExitP => exact stays (.perform hr idleExitPStep_context)
  | isrT =>
    simp only [exec, execIsrT]
    split
    · exact .next (.inl .of_eq)
    · next hs =>
      split
      · exact .fault _
      · next f hf => exact isrTStep_context f hs hf
    · exact .fault _
  | isrP =>
    simp only [exec, execIsrP]
    split
    · exact .next (.inl .of_eq)
    · next hs =>
      split
      · exact .fault _
      · next f hf => exact isrPStep_context f hs hf
    · exact .fault _
  | announce n => exact stays (execAnnounce_context n)
  | iret => exact execIret_context fun hc hs => ⟨rfl, hs, hc, .inl rfl⟩
  | rdCount => exact stays (performPrimitive_context rdCountStep_context)
  | wrComp v => exact stays (performPrimitive_context (postStep_context _))
  | waitSync =>
    refine stays (performPrimitive_context fun f => .waitStep ⟨rfl, rfl⟩ fun u hu => ?_)
    obtain ⟨-, rfl⟩ := awaitSync_eq_some hu
    exact ⟨rfl, rfl⟩
  | wrCtrl c =>
    refine stays (performPrimitive_context fun f => ?_)
    unfold wrCtrlStep
    split
    · exact postStep_context _ f
    · exact .next ⟨rfl, rfl⟩
  | irqUnlock key =>
    refine stays (performPrimitive_context fun f => ?_)
    unfold irqUnlockStep
    split
    · exact .oneStep ⟨rfl, rfl⟩
    · exact .next ⟨rfl, rfl⟩
  | stVar x v =>
    refine stays (performPrimitive_context fun f => .oneStep ?_)
    cases x <;> exact ⟨rfl, rfl⟩
  | _ => exact stays (performPrimitive_context fun f => .oneStep ⟨rfl, rfl⟩)

end

/-! ### Entering and leaving interrupt context -/

/-- What belongs to the normal context is as it was. -/
def FrozenNormal (s t : State) : Prop :=
  t.seqNormal = s.seqNormal ∧ t.prims = s.prims ∧ t.dest = s.dest

/-- An operation of the host or of the sequencer leaves the normal context's part in interrupt context. -/
theorem exec_frozen {i : Instr} {s u : State} (hc : s.ctx = .isr) (hx : ∀ n, s.issuer ≠ .program n)
    (he : exec i s = .next u) : FrozenNormal s u := by
  obtain h | h := (exec_context i s).of_next u he
  · exact ⟨h.frozen hc, h.aside hc hx⟩
  · rw [h.eq]
    exact ⟨rfl, rfl, rfl⟩

/-- Settles O17: no primitive of a test program advances in interrupt context, and the agents do not touch the
contexts. -/
theorem normalContextIsFrozenInTheHandler : Obligations.NormalContextIsFrozenInTheHandler := by
  intro s s' _ hc h
  obtain ⟨ts, k, hn⟩ := nextTurn_state s
  obtain ⟨-, ⟨-, rfl⟩ | ⟨-, u, rfl, hu⟩⟩ := step_turns h
  · exact ⟨rfl, rfl, rfl⟩
  refine (?_ : FrozenNormal s u)
  rw [hn] at hu
  obtain ⟨w, e, -, -, -, rfl⟩ | ⟨w, i, -, -, -, he⟩ | ⟨i, -, -, -, he⟩ | ⟨-, -, -, rfl⟩ |
    ⟨n, i, -, hop, -, -⟩ | ⟨n, -, -, -, rfl⟩ | ⟨-, -, rfl⟩ | ⟨-, -, rfl⟩ | ⟨-, -, rfl⟩ |
    ⟨-, -, rfl⟩ := hu
  · exact ⟨rfl, rfl, rfl⟩
  · exact exec_frozen (s := { s with sched := ts, fresh := k, issuer := .host }) hc (by simp) he
  · exact exec_frozen (s := { s with sched := ts, fresh := k, issuer := .sequencer }) hc (by simp) he
  · exact ⟨rfl, rfl, rfl⟩
  · simp [State.programOp, hc] at hop
  · exact ⟨rfl, rfl, rfl⟩
  · obtain ⟨n, f, k', e⟩ := counterAgent_frame { s with sched := ts, fresh := k }
    rw [e]
    exact ⟨rfl, rfl, rfl⟩
  · obtain ⟨-, e⟩ | ⟨_, -, e⟩ | ⟨_, -, -, e⟩ | ⟨_, -, -, e⟩ | ⟨-, e⟩ :=
      syncUnit_cases { s with sched := ts, fresh := k }
    all_goals
      rw [e]
      exact ⟨rfl, rfl, rfl⟩
  · obtain ⟨-, e⟩ | ⟨-, e⟩ := interruptEntry_cases { s with sched := ts, fresh := k }
    all_goals
      rw [e]
      exact ⟨rfl, rfl, rfl⟩
  · obtain ⟨-, -, e⟩ | e := hostReturns_cases { s with sched := ts, fresh := k }
    all_goals
      rw [e]
      exact ⟨rfl, rfl, rfl⟩

/-- A step that changes the context is interrupt entry, or a processor turn that is the handler's return. -/
theorem step_changes_context {s s' : State} (h : step s = .next s') (hne : s'.ctx ≠ s.ctx) :
    ((nextTurn s).1 = .enter ∧ s.entryEnabled = true ∧ s' = latch (enterInterrupt (nextTurn s).2)) ∨
    (∃ i, (nextTurn s).1 = .proc ∧ s.currentOp = some i ∧
      ∃ u, s' = latch u ∧ Returned i { (nextTurn s).2 with issuer := .sequencer } u) := by
  obtain ⟨ts, k, hn⟩ := nextTurn_state s
  obtain ⟨-, ⟨-, rfl⟩ | ⟨-, u, rfl, hu⟩⟩ := step_turns h
  · exact absurd rfl hne
  rw [latch_ctx] at hne
  have stays {n : State} (hc : n.ctx = (nextTurn s).2.ctx) (hu : u.ctx = n.ctx) : False :=
    hne (hu.trans (hc.trans (nextTurn_ctx s)))
  obtain ⟨w, e, -, -, -, rfl⟩ | ⟨w, i, -, -, -, he⟩ | ⟨i, ht, hi, -, he⟩ | ⟨-, -, -, rfl⟩ |
    ⟨n, i, -, hop, -, he⟩ | ⟨n, -, -, -, rfl⟩ | ⟨-, -, rfl⟩ | ⟨-, -, rfl⟩ | ⟨ht, -, rfl⟩ |
    ⟨-, -, rfl⟩ := hu
  · exact (stays rfl rfl).elim
  · obtain hs | hs := (exec_context i _).of_next u he
    · exact (stays rfl hs.ctx).elim
    · exact absurd hs.by_sequencer (by simp)
  · obtain hs | hs := (exec_context i _).of_next u he
    · exact (stays rfl hs.ctx).elim
    · exact .inr ⟨i, ht, hi, u, rfl, hs⟩
  · exact (stays rfl rfl).elim
  · obtain hs | hs := (exec_context i _).of_next u he
    · exact (stays rfl hs.ctx).elim
    · exact absurd hs.by_sequencer (by simp)
  · exact (stays rfl rfl).elim
  · obtain ⟨n, f, k', e⟩ := counterAgent_frame (nextTurn s).2
    exact (stays rfl (by rw [e])).elim
  · obtain ⟨-, e⟩ | ⟨_, -, e⟩ | ⟨_, -, -, e⟩ | ⟨_, -, -, e⟩ | ⟨-, e⟩ := syncUnit_cases (nextTurn s).2
    all_goals exact (stays rfl (by simp [e])).elim
  · obtain ⟨hen, e⟩ | ⟨-, e⟩ := interruptEntry_cases (nextTurn s).2
    · exact .inl ⟨ht, by simpa [State.entryEnabled] using hen, by rw [e]⟩
    · exact (stays rfl (by rw [e])).elim
  · obtain ⟨-, -, e⟩ | e := hostReturns_cases (nextTurn s).2
    all_goals exact (stays rfl (by rw [e])).elim

/-- Settles O18. -/
theorem handlerIsEnteredOnlyByEntry : Obligations.HandlerIsEnteredOnlyByEntry := by
  intro s s' hc h hc'
  obtain ⟨ht, he, rfl⟩ | ⟨i, -, -, u, rfl, hr⟩ := step_changes_context h (by simp [hc, hc'])
  · obtain ⟨hp, hen, hl, -, -⟩ := (entryEnabled_iff s).1 he
    refine ⟨ht, hp, hen, hl, ?_, ?_⟩
    · rw [latch_of_isr rfl]
      rfl
    · simp only [latch_seqIsr, enterInterrupt_seqIsr, nextTurn_cfg]
      cases s.cfg.mode <;> rfl
  · have hi : s.ctx = .isr := by simpa using hr.from_isr
    simp [hc] at hi

/-- In interrupt context the processor performs the call in the callback, the ANNOUNCE in progress, or the handler
of the build. -/
theorem currentOp_of_isr {s : State} {i : Instr} (h : s.Inv) (hc : s.ctx = .isr) (hi : s.currentOp = some i) :
    (∃ f, s.seqCall = some f ∧ f.op = i ∧ roleOf i = .call) ∨
    (s.seqCall = none ∧ ∃ f n, s.seqAnn = some f ∧ f.k = 2 ∧ i = .announce n) ∨
    (s.seqCall = none ∧ s.seqAnn = none ∧
      ∃ f, s.seqIsr = some f ∧ f.op = i ∧ i = handlerOf s.cfg.mode ∧ f.inRange) := by
  simp only [State.currentOp, hc] at hi
  cases hcall : s.seqCall with
  | some f =>
    obtain rfl : f.op = i := by simpa [hcall] using hi
    exact .inl ⟨f, rfl, rfl, (h.call f hcall).2.2⟩
  | none =>
    cases hann : s.seqAnn with
    | some f =>
      obtain rfl : f.op = i := by simpa [hcall, hann] using hi
      obtain ⟨hk, n, hn⟩ := h.announcing f hann
      exact .inr (.inl ⟨rfl, f, n, rfl, hk, hn⟩)
    | none =>
      obtain ⟨f, hf, hr, ho⟩ := h.handler hc
      obtain rfl : f.op = i := by simpa [hcall, hann, hf] using hi
      exact .inr (.inr ⟨rfl, rfl, f, hf, rfl, ho, hr⟩)

/-- Settles O19: the return is the last step of the handler of the build. -/
theorem handlerIsLeftOnlyByIret : Obligations.HandlerIsLeftOnlyByIret := by
  intro s s' hinv hc h hc'
  obtain ⟨-, -, rfl⟩ | ⟨i, ht, hi, u, rfl, hr⟩ := step_changes_context h (by simp [hc, hc'])
  · cases hc'
  have hlast : i = .iret ∨ ∃ f, s.seqIsr = some f ∧ ((i = .isrT ∧ f.k = 9) ∨ (i = .isrP ∧ f.k = 8)) := by
    simpa using hr.last
  obtain ⟨f, -, -, hrole⟩ | ⟨-, f, n, -, -, rfl⟩ | ⟨hcall, hann, f, hf, -, ho, -⟩ := currentOp_of_isr hinv hc hi
  · obtain rfl | ⟨_, -, ⟨rfl, -⟩ | ⟨rfl, -⟩⟩ := hlast <;> cases hrole
  · obtain hx | ⟨_, -, ⟨hx, -⟩ | ⟨hx, -⟩⟩ := hlast <;> cases hx
  refine ⟨ht, hann, hcall, by rw [hr.eq]; rfl, by rw [hr.eq]; simp, f, hf, ?_⟩
  cases hm : s.cfg.mode with
  | tickless =>
    obtain rfl | ⟨g, hg, ⟨rfl, hk⟩ | ⟨rfl, -⟩⟩ := hlast
    · rw [hm] at ho
      cases ho
    · obtain rfl : f = g := by simpa [hf] using hg
      exact hk
    · rw [hm] at ho
      cases ho
  | periodic =>
    obtain rfl | ⟨g, hg, ⟨rfl, -⟩ | ⟨rfl, hk⟩⟩ := hlast
    · rw [hm] at ho
      cases ho
    · rw [hm] at ho
      cases ho
    · obtain rfl : f = g := by simpa [hf] using hg
      exact hk

/-! ### Entry under weak fairness (60 R208, 70 R243) -/

/-- The operations that may disable an enabled entry. -/
def DisablesEntry (i : Instr) : Prop :=
  i = .nvicClrpend ∨ i = .nvicDisable ∨ i = .irqLock ∨ (∃ key, i = .irqUnlock key) ∨
    (∃ t b, i = .setTimeoutP t b) ∨ i = .init

/-- Any other operation keeps entry enabled, if it is not refused. -/
theorem exec_entryEnabled {i : Instr} {s u : State} (h : s.entryEnabled = true) (hd : ¬ DisablesEntry i)
    (he : exec i s = .next u) (hr : u.refused = false) : u.entryEnabled = true := by
  obtain ⟨hp, hen, hl, hc, -⟩ := (entryEnabled_iff s).1 h
  have hp' := exec_kept he .pendKept (by rintro (rfl | rfl) <;> simp [DisablesEntry] at hd)
  have hen' := exec_kept he .enableKept (by rintro (rfl | rfl) <;> simp [DisablesEntry] at hd)
  have hl' := exec_kept he .irqLocked (by
    rintro (rfl | ⟨key, rfl⟩ | ⟨t, b, rfl⟩) <;> simp [DisablesEntry] at hd)
  refine (entryEnabled_iff u).2 ⟨hp' hp, hen' hen, hl'.trans hl, ?_, hr⟩
  obtain hs | hs := (exec_context i s).of_next u he
  · exact hs.ctx.trans hc
  · exact absurd hs.from_isr (by simp [hc])

theorem latch_entryEnabled {s : State} (h : s.entryEnabled = true) : (latch s).entryEnabled = true := by
  obtain ⟨hp, hen, hl, hc, hr⟩ := (entryEnabled_iff s).1 h
  exact (entryEnabled_iff _).2 ⟨by simp [hp], hen, hl, hc, hr⟩

/-- An enabled entry stays enabled in a run until it is taken or an operation of the software disables it. -/
theorem run_entryEnabled {τ : Nat → Turn} {σ : Nat → State} (h : RunAlong τ σ) {m : Nat}
    (he : (σ m).entryEnabled = true) (ht : τ m ≠ .enter)
    (hd : ∀ i, performedAt τ σ m = some i → ¬ DisablesEntry i) : (σ (m + 1)).entryEnabled = true := by
  have hnext := (run_turn h (m + 1)).1.1
  obtain ⟨u, hu, ⟨i, x, hi, hx, -⟩ | ⟨-, rfl, -⟩ | ⟨-, rfl⟩ | ⟨-, rfl⟩ | ⟨hen, -⟩ | ⟨-, rfl⟩⟩ := run_cases h m
  · rw [hu] at hnext ⊢
    exact latch_entryEnabled (exec_entryEnabled (s := { σ m with issuer := x }) he (hd i hi) hx hnext)
  · rw [hu]
    exact latch_entryEnabled he
  · rw [hu]
    obtain ⟨n, f, k, e⟩ := counterAgent_frame (σ m)
    exact latch_entryEnabled (by rw [e]; exact he)
  · rw [hu]
    refine latch_entryEnabled ?_
    obtain ⟨-, e⟩ | ⟨_, -, e⟩ | ⟨_, -, -, e⟩ | ⟨_, -, -, e⟩ | ⟨-, e⟩ := syncUnit_cases (σ m)
    all_goals
      rw [e]
      exact he
  · exact absurd hen ht
  · rw [hu]
    refine latch_entryEnabled ?_
    obtain ⟨-, -, e⟩ | e := hostReturns_cases (σ m)
    all_goals
      rw [e]
      exact he

/-- A turn given to an enabled entry takes it. -/
theorem takeTurn_enter {s : State} (h : s.entryEnabled = true) : takeTurn .enter s = .next (enterInterrupt s) := by
  change Host.Outcome.next (latch (interruptEntry s)) = _
  rw [show interruptEntry s = enterInterrupt s by simp [interruptEntry, h], latch_of_isr rfl]

/-- Settles O24: entry that nothing disables stays enabled, so a fair run takes it. -/
theorem entryHappensExactlyWhenEnabled : Obligations.EntryHappensExactlyWhenEnabled := by
  refine ⟨fun s ts hr hs => ⟨fun h => ?_, fun h => ?_⟩, fun τ σ n hrun hfair he => ?_⟩
  · obtain ⟨hp, hen, hl, hc⟩ := h
    have hen : State.entryEnabled { s with sched := ts } = true :=
      (entryEnabled_iff _).2 ⟨hp, hen, hl, hc, hr.1⟩
    rw [step_of_sched hr hs, takeTurn_enter hen]
    cases hm : s.cfg.mode <;> simp [enterInterrupt, handlerOf, hm]
  · have hen : State.entryEnabled { s with sched := ts } = false := by
      rw [Bool.eq_false_iff]
      intro he
      obtain ⟨hp, hen, hl, hc, -⟩ := (entryEnabled_iff _).1 he
      exact h ⟨hp, hen, hl, hc⟩
    rw [step_of_sched hr hs]
    change Host.Outcome.next (latch (interruptEntry _)) = _
    simp [interruptEntry, hen]
  · by_contra hno
    have hno (m : Nat) (hm : n ≤ m) (hen : (σ m).entryEnabled = true) :
        τ m ≠ .enter ∧ ∀ i, performedAt τ σ m = some i → ¬ DisablesEntry i := by
      refine ⟨fun ht => hno ⟨m, hm, hen, .inl ⟨ht, ?_⟩⟩, fun i hi hd => hno ⟨m, hm, hen, .inr ?_⟩⟩
      · have hn := (run_turn hrun m).2
        rw [ht, takeTurn_enter hen] at hn
        rw [← Host.Outcome.next.inj hn]
        rfl
      · simp only [hi, Option.some.injEq]
        exact hd
    have hstays (m : Nat) (hm : n ≤ m) : (σ m).entryEnabled = true := by
      induction m, hm using Nat.le_induction with
      | base => exact he
      | succ m hm ih => exact run_entryEnabled hrun ih (hno m hm ih).1 (hno m hm ih).2
    obtain ⟨m, hm, ht⟩ := hfair .enter rfl n hstays
    exact (hno m hm (hstays m hm)).1 ht

end Sys2Proof.Machine
end

section
/-! PROOF. The machine's invariant (O11, O13). Of every operation that a state with the invariant may perform it is
shown at once that it answers a next state and that the invariant holds there. -/

namespace Sys2Proof.Machine

/-! ### The invariant under the shared operations -/

/-- The invariant speaks of the slot, CTRL, the contexts, the positions and the primitives only. -/
theorem State.Inv.of_eq {s t : State} (h : s.Inv) (hb : t.syncbusy = s.syncbusy := by rfl)
    (ho : t.syncOp = s.syncOp := by rfl) (hl : t.swrstLanded = s.swrstLanded := by rfl)
    (hc : t.ctrl = s.ctrl := by rfl) (hn : t.seqNormal = s.seqNormal := by rfl) (hx : t.ctx = s.ctx := by rfl)
    (hi : t.seqIsr = s.seqIsr := by rfl) (ha : t.seqAnn = s.seqAnn := by rfl)
    (hk : t.seqCall = s.seqCall := by rfl) (hm : t.cfg = s.cfg := by rfl) (hp : t.prims = s.prims := by rfl) :
    t.Inv where
  busy := by rw [hb, ho]; exact h.busy
  slot := by rw [ho]; exact h.slot
  ctrl := by rw [hl, hc]; exact h.ctrl
  normal := by rw [hn]; exact h.normal
  outside := by rw [hx, hi, ha, hk]; exact h.outside
  handler := by rw [hx, hi, hm]; exact h.handler
  announcing := by rw [ha]; exact h.announcing
  call := by rw [hk, ha]; exact h.call
  prims := by rw [hp]; exact h.prims

/-- The frame may stand as the running context's call. -/
structure State.MayRun (s : State) (f : Frame) : Prop where
  inRange : f.inRange
  normal : s.ctx = .normal → roleOf f.op = .init ∨ roleOf f.op = .call
  isr : s.ctx = .isr → roleOf f.op = .call ∧ s.seqAnn ≠ none

/-- A call that goes to another of its steps. -/
theorem State.MayRun.move {s t : State} {f g : Frame} {n : Nat} (hf : s.MayRun f) (hn : stepsOf f.op = n)
    (hk : 1 ≤ g.k ∧ g.k ≤ n := by simp) (ho : g.op = f.op := by rfl) (hx : t.ctx = s.ctx := by rfl)
    (ha : t.seqAnn = s.seqAnn := by rfl) : t.MayRun g where
  inRange := by rw [Frame.inRange, ho, hn]; exact hk
  normal := by rw [ho, hx]; exact hf.normal
  isr := by rw [ho, hx, ha]; exact hf.isr

section
variable {s : State} {f : Frame}

theorem State.Inv.run (h : s.Inv) (hf : s.MayRun f) : (s.setCall (some f)).Inv := by
  cases hc : s.ctx with
  | normal =>
    rw [setCall_of_normal hc]
    refine { h with normal := ?_ }
    rintro _ ⟨⟩
    exact ⟨hf.inRange, hf.normal hc⟩
  | isr =>
    rw [show s.setCall (some f) = { s with seqCall := some f } by simp [State.setCall, hc]]
    obtain ⟨hr, ha⟩ := hf.isr hc
    refine { h with outside := fun hn => ?_, call := ?_ }
    · rw [show s.ctx = .normal from hn] at hc
      cases hc
    · rintro _ ⟨⟩
      exact ⟨ha, hf.inRange, hr⟩

theorem State.Inv.stop (h : s.Inv) : (s.setCall none).Inv := by
  cases hc : s.ctx with
  | normal =>
    rw [setCall_of_normal hc]
    exact { h with normal := by simp }
  | isr =>
    rw [show s.setCall none = { s with seqCall := none } by simp [State.setCall, hc]]
    refine { h with outside := fun hn => ?_, call := by simp }
    rw [show s.ctx = .normal from hn] at hc
    cases hc

theorem State.Inv.ended (h : s.Inv) {op : Call} {v : Result} : (s.endCall op v).Inv :=
  h.stop.of_eq

theorem State.Inv.post (h : s.Inv) {op : SyncOp} (hn : op ≠ .none)
    (hm : ∀ c, op = .writeCtrl c → c.modelled = true) : ({ s with syncOp := op, syncbusy := true } : State).Inv :=
  { h with busy := by simp [hn], slot := hm }

theorem State.Inv.readCount (h : s.Inv) : ({ s with syncOp := .readCount, syncbusy := true } : State).Inv :=
  h.post (by simp) (by simp)

theorem State.Inv.freed (h : s.Inv) : ({ s with syncOp := .none, syncbusy := false } : State).Inv :=
  { h with busy := by simp, slot := by simp }

theorem State.Inv.handlerAt (h : s.Inv) (hc : s.ctx = .isr) (hr : f.inRange) (ho : f.op = handlerOf s.cfg.mode) :
    ({ s with seqIsr := some f } : State).Inv := by
  refine { h with outside := fun hn => ?_, handler := fun _ => ⟨f, rfl, hr, ho⟩ }
  rw [show s.ctx = .normal from hn] at hc
  cases hc

theorem State.Inv.announces (h : s.Inv) (hc : s.ctx = .isr) (n : Word) :
    ({ s with seqAnn := some { Frame.start (.announce n) with k := 2 } } : State).Inv := by
  refine { h with outside := fun hn => ?_, announcing := ?_, call := fun g hg => ?_ }
  · rw [show s.ctx = .normal from hn] at hc
    cases hc
  · rintro _ ⟨⟩
    exact ⟨rfl, n, rfl⟩
  · obtain ⟨-, hr⟩ := h.call g hg
    exact ⟨by simp, hr⟩

theorem State.Inv.returned (h : s.Inv) (ha : s.seqAnn = none) (hk : s.seqCall = none) :
    (returnFromInterrupt s).Inv :=
  { h with outside := fun _ => ⟨rfl, ha, hk⟩, handler := by rintro ⟨⟩ }

theorem State.Inv.storePrim (h : s.Inv) (hr : f.inRange) (ho : roleOf f.op = .primitive) : (s.storePrim f).Inv := by
  refine { h with prims := fun g hg => ?_ }
  obtain rfl | hg := mem_storePrim hg
  · exact ⟨hr, ho⟩
  · exact h.prims g hg

theorem State.Inv.endPrim (h : s.Inv) : s.endPrim.Inv :=
  { h with prims := fun g hg => h.prims g (mem_endPrim hg) }

end

/-! ### Answers that meet the invariant -/

/-- The answer is a next state that meets the invariant. -/
structure AnswersInv (o : Res) : Prop where
  next' : ∃ t, o = .next t ∧ t.Inv

namespace AnswersInv

variable {s t : State} {f : Frame}

theorem next (h : t.Inv) : AnswersInv (.next t) := ⟨t, rfl, h⟩

theorem refuse (h : s.Inv) (r : Reason) : AnswersInv (.next (refuse r s)) := next h.of_eq

theorem post {op : SyncOp} {go : State → State} (h : s.Inv) (hf : s.MayRun f) (hn : op ≠ .none := by simp)
    (hm : ∀ c, op = .writeCtrl c → c.modelled = true := by simp)
    (hg : ∀ u : State, u.Inv → u.ctx = s.ctx → u.seqAnn = s.seqAnn → (go u).Inv) :
    AnswersInv (orHold f s (postSync op s) go) := by
  by_cases hs : s.syncOp = .none
  · rw [orHold_posts hs]
    exact next (hg _ (h.post hn hm) rfl rfl)
  · rw [postSync_of_busy hs]
    exact next (h.run hf)

/-- A step that posts an access and goes to another step of the call. -/
theorem postMoves {op : SyncOp} {g : Frame} {n : Nat} (h : s.Inv) (hf : s.MayRun f) (hs : stepsOf f.op = n)
    (hk : 1 ≤ g.k ∧ g.k ≤ n := by simp) (ho : g.op = f.op := by rfl) (hn : op ≠ .none := by simp)
    (hm : ∀ c, op = .writeCtrl c → c.modelled = true := by simp) :
    AnswersInv (orHold f s (postSync op s) fun u => u.setCall (some g)) :=
  post h hf hn hm fun _ hu hx ha => hu.run (hf.move hs hk ho hx ha)

theorem await {go : State → State} (h : s.Inv) (hf : s.MayRun f) (hg : (go s).Inv) :
    AnswersInv (orHold f s (awaitSync s) go) := by
  by_cases hs : s.syncOp = .none
  · rw [orHold_goes hs]
    exact next hg
  · rw [awaitSync_of_busy hs]
    exact next (h.run hf)

end AnswersInv

section
variable {s : State} {f : Frame}

theorem initStep_inv (h : s.Inv) (hf : s.MayRun f) (ho : f.op = .init) : AnswersInv (initStep f s) := by
  have hn : stepsOf f.op = 21 := by rw [ho]; rfl
  have hk : 1 ≤ f.k ∧ f.k ≤ 21 := hn ▸ hf.inRange
  unfold initStep
  split
  case h_8 | h_10 | h_12 | h_14 | h_16 | h_19 => exact .await h hf (h.run (hf.move hn))
  case h_9 | h_11 => exact .postMoves h hf hn (hm := by simp [Ctrl.modelled, resetCtrl])
  case h_13 | h_18 => exact .postMoves h hf hn (hm := by simp [Ctrl.modelled, initCtrl])
  case h_15 =>
    split
    · exact .postMoves h hf hn
    · exact .next (h.run (hf.move hn))
  case h_21 => exact .next (State.Inv.ended h.of_eq)
  case h_22 => simp only [imp_false] at *; omega
  all_goals exact .next (State.Inv.run h.of_eq (hf.move hn))

theorem setTimeoutTStep_inv (ticks : Word) (h : s.Inv) (hf : s.MayRun f) (hn : stepsOf f.op = 6) :
    AnswersInv (setTimeoutTStep ticks f s) := by
  have hk : 1 ≤ f.k ∧ f.k ≤ 6 := hn ▸ hf.inRange
  unfold setTimeoutTStep
  split
  case h_1 => exact .next (h.run (hf.move hn))
  case h_2 => exact .postMoves h hf hn
  case h_6 => exact .post h hf (hg := fun u hu _ _ => hu.ended)
  case h_3 | h_5 => exact .await h hf (h.run (hf.move hn))
  case h_4 =>
    split
    · exact .next (State.Inv.ended h.of_eq)
    · exact .next (h.run (hf.move hn))
  case h_7 => simp only [imp_false] at *; omega

theorem setTimeoutPStep_inv (ticks : Word) (h : s.Inv) (hf : s.MayRun f) (hn : stepsOf f.op = 4) :
    AnswersInv (setTimeoutPStep ticks f s) := by
  have hk : 1 ≤ f.k ∧ f.k ≤ 4 := hn ▸ hf.inRange
  unfold setTimeoutPStep
  split
  case h_1 =>
    split
    · exact .next (State.Inv.ended h.of_eq)
    · exact .next (State.Inv.run h.of_eq (hf.move hn))
  case h_2 => exact .next (h.run (hf.move hn))
  case h_3 =>
    split
    · exact .next (State.Inv.run h.of_eq (hf.move hn))
    · exact .next (State.Inv.run h.of_eq (hf.move hn))
  case h_4 => exact .next (State.Inv.ended h.of_eq)
  case h_5 => simp only [imp_false] at *; omega

theorem queryElapsedTStep_inv (h : s.Inv) (hf : s.MayRun f) (hn : stepsOf f.op = 4) :
    AnswersInv (queryElapsedTStep f s) := by
  have hk : 1 ≤ f.k ∧ f.k ≤ 4 := hn ▸ hf.inRange
  unfold queryElapsedTStep
  split
  · exact .next (h.run (hf.move hn))
  · exact .postMoves h hf hn
  · exact .await h hf (h.run (hf.move hn))
  · exact .next h.ended
  · simp only [imp_false] at *; omega

theorem queryElapsedPStep_inv (h : s.Inv) (hf : s.MayRun f) (hn : stepsOf f.op = 2) :
    AnswersInv (queryElapsedPStep f s) := by
  have hk : 1 ≤ f.k ∧ f.k ≤ 2 := hn ▸ hf.inRange
  unfold queryElapsedPStep
  split
  · exact .next (h.run (hf.move hn))
  · exact .next h.ended
  · simp only [imp_false] at *; omega

theorem idleExitTStep_inv (h : s.Inv) (hf : s.MayRun f) (hn : stepsOf f.op = 1) :
    AnswersInv (idleExitTStep f s) := by
  have hk : 1 ≤ f.k ∧ f.k ≤ stepsOf f.op := hf.inRange
  rw [hn] at hk
  unfold idleExitTStep
  split
  · exact .next h.ended
  · simp only [imp_false] at *; omega

theorem idleExitPStep_inv (h : s.Inv) (hf : s.MayRun f) (hn : stepsOf f.op = 1) :
    AnswersInv (idleExitPStep f s) := by
  have hk : 1 ≤ f.k ∧ f.k ≤ stepsOf f.op := hf.inRange
  rw [hn] at hk
  unfold idleExitPStep
  split
  · exact .next h.ended
  · simp only [imp_false] at *; omega

/-! ### The handlers -/

/-- The sequencer performs the handler of the build: no ANNOUNCE and no call in the callback is in progress. -/
structure State.InHandler (s : State) (f : Frame) : Prop where
  sequencer : s.issuer = .sequencer
  ctx : s.ctx = .isr
  frame : s.seqIsr = some f
  op : f.op = handlerOf s.cfg.mode
  alone : s.seqAnn = none ∧ s.seqCall = none
  inRange : f.inRange

/-- The handler goes to another of its steps. -/
theorem State.Inv.handlerMoves {t : State} {g : Frame} {n : Nat} (h : s.Inv) (hf : s.InHandler f)
    (hn : stepsOf f.op = n) (hi : t.seqIsr = some g := by rfl) (hk : 1 ≤ g.k ∧ g.k ≤ n := by simp)
    (ho : g.op = f.op := by rfl)
    (ht : t = { s with
      intflag := t.intflag, lastMark := t.lastMark, tickCount := t.tickCount, seqIsr := t.seqIsr } := by rfl) :
    t.Inv := by
  have hu := h.handlerAt hf.ctx (f := g) (by rw [Frame.inRange, ho, hn]; exact hk) (ho.trans hf.op)
  rw [ht, hi]
  exact hu.of_eq

/-- The announcing step of a handler. -/
theorem callAnnounce_inv {g : Frame} {k : Nat} (v : Word) (h : s.Inv) (hf : s.InHandler f) (hn : stepsOf f.op = k)
    (hk : 1 ≤ g.k ∧ g.k ≤ k := by simp) (ho : g.op = f.op := by rfl) : AnswersInv (callAnnounce v g s) := by
  rw [callAnnounce_sequencer hf.sequencer]
  have hu := h.handlerMoves hf hn (t := { s with seqIsr := some g }) rfl hk ho
  exact .next (hu.announces hf.ctx v).of_eq

theorem execIret_inv (h : s.Inv) (hf : s.InHandler f) : AnswersInv (execIret s) := by
  simp only [execIret, hf.sequencer, hf.ctx]
  exact .next (h.returned hf.alone.1 hf.alone.2)

theorem isrTStep_inv (h : s.Inv) (hf : s.InHandler f) (hn : stepsOf f.op = 9) : AnswersInv (isrTStep f s) := by
  have hk : 1 ≤ f.k ∧ f.k ≤ 9 := hn ▸ hf.inRange
  unfold isrTStep
  split
  case h_1 => exact .next (h.handlerMoves hf hn)
  case h_2 => exact .next (h.handlerMoves hf hn)
  case h_3 =>
    split
    · exact .next h
    · next u hu =>
      obtain ⟨-, rfl⟩ := postSync_eq_some hu
      have hu := h.handlerMoves hf hn (t := { s with seqIsr := some { f with k := 4 } })
      exact .next hu.readCount
  case h_4 =>
    split
    · exact .next h
    · next u hu =>
      obtain ⟨-, rfl⟩ := awaitSync_eq_some hu
      exact .next (h.handlerMoves hf hn)
  case h_5 =>
    refine .next (h.handlerMoves hf hn rfl ?_)
    dsimp only
    split <;> simp
  case h_6 => exact callAnnounce_inv _ h hf hn
  case h_7 => exact .next (h.handlerMoves hf hn)
  case h_8 =>
    split
    · exact callAnnounce_inv _ h hf hn
    · exact .next (h.handlerMoves hf hn)
  case h_9 => exact execIret_inv h hf
  case h_10 => simp only [imp_false] at *; omega

theorem isrPStep_inv (h : s.Inv) (hf : s.InHandler f) (hn : stepsOf f.op = 8) : AnswersInv (isrPStep f s) := by
  have hk : 1 ≤ f.k ∧ f.k ≤ 8 := hn ▸ hf.inRange
  unfold isrPStep
  split
  case h_1 => exact .next (h.handlerMoves hf hn)
  case h_2 =>
    refine .next (h.handlerMoves hf hn rfl ?_)
    dsimp only
    split <;> simp
  case h_3 | h_6 => exact .next (h.handlerMoves hf hn)
  case h_4 =>
    refine .next (h.handlerMoves hf hn rfl ?_)
    dsimp only
    split <;> simp
  case h_5 | h_7 => exact callAnnounce_inv _ h hf hn
  case h_8 => exact execIret_inv h hf
  case h_9 => simp only [imp_false] at *; omega

end

/-! ### Who performs what -/

/-- The operation is one that the issuer may be given: any for the host, and for the others that of the frame at
which they stand. -/
inductive Legal (i : Instr) (s : State) : Prop where
  | host (h : s.issuer = .host)
  | sequencer (h : s.issuer = .sequencer) (hi : s.currentOp = some i)
  | program (n : Nat) (h : s.issuer = .program n) (hi : s.programOp n = some i)

theorem currentOp_of_normal {s : State} {i : Instr} (h : s.Inv) (hc : s.ctx = .normal) (hi : s.currentOp = some i) :
    ∃ f, s.seqNormal = some f ∧ f.op = i ∧ f.inRange ∧ (roleOf i = .init ∨ roleOf i = .call) := by
  simp only [State.currentOp, hc, Option.map_eq_some_iff] at hi
  obtain ⟨f, hf, rfl⟩ := hi
  exact ⟨f, hf, rfl, h.normal f hf⟩

theorem programOp_eq_some {s : State} {n : Nat} {i : Instr} (h : s.Inv) (hi : s.programOp n = some i) :
    ∃ f, s.prims[n]? = some f ∧ f.op = i ∧ f.inRange ∧ roleOf i = .primitive := by
  unfold State.programOp at hi
  split at hi
  · obtain ⟨f, hf, rfl⟩ := Option.map_eq_some_iff.1 hi
    exact ⟨f, hf, rfl, h.prims f (List.mem_of_getElem? hf)⟩
  · cases hi

section
variable {s : State} {i : Instr}

/-- A kernel-facing operation: refused, at its step 1, or at the step of the call in flight. -/
theorem perform_inv {a : Option Reason} {body : Frame → State → Res} (h : s.Inv) (hl : Legal i s)
    (hr : roleOf i = .init ∨ roleOf i = .call) (ha : a = none → s.MayRun (Frame.start i))
    (hb : ∀ f, f.op = i → s.MayRun f → AnswersInv (body f s)) : AnswersInv (perform i a body s) := by
  cases hl with
  | host hs =>
    cases a with
    | some r =>
      rw [perform_refused hs]
      exact .refuse h r
    | none =>
      rw [perform_admitted hs]
      exact hb _ rfl (ha rfl)
  | sequencer hs hi =>
    cases hc : s.ctx with
    | normal =>
      obtain ⟨f, hf, rfl, hk, hx⟩ := currentOp_of_normal h hc hi
      rw [perform_sequencer hs (by simpa [State.callFrame, hc] using hf)]
      exact hb f rfl ⟨hk, fun _ => hx, fun hn => by rw [hc] at hn; cases hn⟩
    | isr =>
      obtain ⟨f, hf, rfl, -⟩ | ⟨-, _, _, -, -, rfl⟩ | ⟨-, -, _, -, -, rfl, -⟩ := currentOp_of_isr h hc hi
      · obtain ⟨hopen, hk, hx⟩ := h.call f hf
        rw [perform_sequencer hs (by simpa [State.callFrame, hc] using hf)]
        exact hb f rfl ⟨hk, fun hn => (by rw [hc] at hn; cases hn), fun _ => ⟨hx, hopen⟩⟩
      · simp [roleOf] at hr
      · cases hm : s.cfg.mode <;> simp [hm, handlerOf, roleOf] at hr
  | program n hs hi =>
    obtain ⟨_, -, -, -, hp⟩ := programOp_eq_some h hi
    simp [hp] at hr

/-- Every operation has a step 1. -/
theorem start_inRange (i : Instr) : (Frame.start i).inRange := by
  refine ⟨Nat.le_refl 1, ?_⟩
  cases i <;> simp [Frame.start, stepsOf]

/-- A call that is admitted may stand at its step 1. -/
theorem mayRun_of_admitCall {m : Mode} (hr : roleOf i = .call) (ha : admitCall m s = none) :
    s.MayRun (Frame.start i) := by
  obtain ⟨-, -, -, hopen⟩ := admitCall_eq_none.1 ha
  refine ⟨start_inRange i, fun _ => .inr hr, fun hc => ⟨hr, fun hn => ?_⟩⟩
  obtain ⟨f, hf, -⟩ := callbackOpen_iff.1 (hopen hc)
  simp [hn] at hf

theorem mayRun_of_admitInit (ha : admitInit s = none) : s.MayRun (Frame.start .init) := by
  refine ⟨start_inRange _, fun _ => .inl rfl, fun hc => ?_⟩
  cases hi : s.inited <;> simp [admitInit, hc, hi] at ha

/-- A primitive: refused, at its step 1, or at the step of the one in flight. -/
theorem performPrimitive_inv {body : Frame → State → Res} (h : s.Inv) (hl : Legal i s) (hr : roleOf i = .primitive)
    (hb : ∀ f, f.op = i → f.inRange → AnswersInv (body f s)) :
    AnswersInv (performPrimitive i body s) := by
  cases hl with
  | host hs =>
    cases hc : s.ctx with
    | normal =>
      rw [performPrimitive_admitted hs hc]
      exact hb _ rfl (start_inRange i)
    | isr =>
      rw [show performPrimitive i body s = .next (refuse .wrongIssuer s) by
        simp [performPrimitive, admitPrimitive, hs, hc]]
      exact .refuse h _
  | sequencer hs hi =>
    cases hc : s.ctx with
    | normal =>
      obtain ⟨f, -, rfl, -, hx⟩ := currentOp_of_normal h hc hi
      simp [hr] at hx
    | isr =>
      obtain ⟨f, -, -, hx⟩ | ⟨-, _, _, -, -, rfl⟩ | ⟨-, -, _, -, -, rfl, -⟩ := currentOp_of_isr h hc hi
      · simp [hr] at hx
      · cases hr
      · cases hm : s.cfg.mode <;> simp [hm, handlerOf, roleOf] at hr
  | program n hs hi =>
    obtain ⟨f, hf, rfl, hk, -⟩ := programOp_eq_some h hi
    rw [performPrimitive_program hs hf]
    exact hb f rfl hk

/-- A primitive that is performed at once. -/
theorem oneStep_inv {eff : State → State} {f : Frame} (hn : stepsOf f.op = 1) (hk : f.inRange) (h : (eff s).Inv) :
    AnswersInv (oneStep eff f s) := by
  have hk : 1 ≤ f.k ∧ f.k ≤ stepsOf f.op := hk
  rw [hn] at hk
  rw [show oneStep eff f s = .next (eff s).endPrim by simp [oneStep, show f.k = 1 by omega]]
  exact .next h.endPrim

/-- A primitive of one step that may hold. -/
theorem waitStep_inv {eff : State → Option State} {f : Frame} (h : s.Inv) (hr : roleOf f.op = .primitive)
    (hn : stepsOf f.op = 1) (hk : f.inRange) (he : ∀ u, eff s = some u → u.Inv) :
    AnswersInv (waitStep eff f s) := by
  have hk' : 1 ≤ f.k ∧ f.k ≤ stepsOf f.op := hk
  rw [hn] at hk'
  simp only [waitStep, show f.k = 1 by omega]
  cases hu : s.inOrder (eff s) with
  | none => exact .next (h.storePrim hk hr)
  | some u => exact .next (he u (inOrder_eq_some hu).2).endPrim

theorem rdCountStep_inv {f : Frame} (h : s.Inv) (ho : f.op = .rdCount) (hk : f.inRange) :
    AnswersInv (rdCountStep f s) := by
  have hn : stepsOf f.op = 2 := by rw [ho]; rfl
  have hr : roleOf f.op = .primitive := by rw [ho]; rfl
  have hk' : 1 ≤ f.k ∧ f.k ≤ 2 := hn ▸ hk
  unfold rdCountStep
  split
  · cases hu : s.inOrder (postSync .readCount s) with
    | none => exact .next (h.storePrim hk hr)
    | some u =>
      obtain ⟨-, rfl⟩ := postSync_eq_some (inOrder_eq_some hu).2
      exact .next (h.readCount.storePrim (by rw [Frame.inRange, hn]; simp) hr)
  · cases hu : awaitSync s with
    | none => exact .next (h.storePrim hk hr)
    | some u =>
      obtain ⟨-, rfl⟩ := awaitSync_eq_some hu
      exact .next (State.Inv.endPrim h.of_eq)
  · simp only [imp_false] at *; omega

/-- The sequencer performs the handler of the build where the invariant has it. -/
theorem inHandler_of_currentOp (h : s.Inv) (hs : s.issuer = .sequencer) (hi : s.currentOp = some i)
    (hr : i = .isrT ∨ i = .isrP) : ∃ f, s.InHandler f ∧ f.op = i := by
  cases hc : s.ctx with
  | normal =>
    obtain ⟨_, -, -, -, hx⟩ := currentOp_of_normal h hc hi
    obtain rfl | rfl := hr <;> simp [roleOf] at hx
  | isr =>
    obtain ⟨_, -, -, hx⟩ | ⟨-, _, _, -, -, rfl⟩ | ⟨hk, ha, f, hf, rfl, ho, hn⟩ := currentOp_of_isr h hc hi
    · obtain rfl | rfl := hr <;> cases hx
    · simp at hr
    · exact ⟨f, ⟨hs, hc, hf, ho, ⟨ha, hk⟩, hn⟩, rfl⟩

/-- The handlers, ANNOUNCE and IRET are never a test program's. -/
theorem programOp_ne_handler {n : Nat} (h : s.Inv) (hr : roleOf i = .handler) : s.programOp n ≠ some i := by
  intro hi
  obtain ⟨_, -, -, -, hx⟩ := programOp_eq_some h hi
  rw [hr] at hx
  cases hx

theorem execIsrT_inv (h : s.Inv) (hl : Legal .isrT s) : AnswersInv (exec .isrT s) := by
  cases hl with
  | host hs =>
    rw [exec_handlerOp_refused (n := 0) hs (by simp)]
    exact .refuse h _
  | sequencer hs hi =>
    obtain ⟨f, hf, ho⟩ := inHandler_of_currentOp h hs hi (.inl rfl)
    rw [exec_isrT_handler ⟨hs, hf.ctx, hf.frame, rfl⟩]
    exact isrTStep_inv h hf (by rw [ho]; rfl)
  | program n hs hi => exact absurd hi (programOp_ne_handler h rfl)

theorem execIsrP_inv (h : s.Inv) (hl : Legal .isrP s) : AnswersInv (exec .isrP s) := by
  cases hl with
  | host hs =>
    rw [exec_handlerOp_refused (n := 0) hs (by simp)]
    exact .refuse h _
  | sequencer hs hi =>
    obtain ⟨f, hf, ho⟩ := inHandler_of_currentOp h hs hi (.inr rfl)
    rw [exec_isrP_handler ⟨hs, hf.ctx, hf.frame, rfl⟩]
    exact isrPStep_inv h hf (by rw [ho]; rfl)
  | program n hs hi => exact absurd hi (programOp_ne_handler h rfl)

/-- ANNOUNCE in progress holds at its step 2. -/
theorem execAnnounce_inv {n : Word} (h : s.Inv) (hl : Legal (.announce n) s) : AnswersInv (exec (.announce n) s) := by
  cases hl with
  | host hs =>
    rw [exec_handlerOp_refused (n := n) hs (by simp)]
    exact .refuse h _
  | sequencer hs hi =>
    cases hc : s.ctx with
    | normal =>
      obtain ⟨_, -, -, -, hx⟩ := currentOp_of_normal h hc hi
      simp [roleOf] at hx
    | isr =>
      obtain ⟨_, -, -, hx⟩ | ⟨-, f, _, hf, hk, -⟩ | ⟨-, -, _, -, -, hx, -⟩ := currentOp_of_isr h hc hi
      · cases hx
      · rw [show exec (.announce n) s = .next s by simp [exec, execAnnounce, hs, hf, hk]]
        exact .next h
      · cases hm : s.cfg.mode <;> simp [hm, handlerOf] at hx
  | program n hs hi => exact absurd hi (programOp_ne_handler h rfl)

/-- IRET as an operation of its own is never the running context's (43 R185): the handlers perform it. -/
theorem execIret_issued_inv (h : s.Inv) (hl : Legal .iret s) : AnswersInv (exec .iret s) := by
  cases hl with
  | host hs =>
    rw [exec_handlerOp_refused (n := 0) hs (by simp)]
    exact .refuse h _
  | sequencer hs hi =>
    cases hc : s.ctx with
    | normal =>
      obtain ⟨_, -, -, -, hx⟩ := currentOp_of_normal h hc hi
      simp [roleOf] at hx
    | isr =>
      obtain ⟨_, -, -, hx⟩ | ⟨-, _, _, -, -, hx⟩ | ⟨-, -, _, -, -, hx, -⟩ := currentOp_of_isr h hc hi
      · cases hx
      · cases hx
      · cases hm : s.cfg.mode <;> simp [hm, handlerOf] at hx
  | program n hs hi => exact absurd hi (programOp_ne_handler h rfl)

end

/-- Every operation, performed by one that may, answers a next state, and the invariant holds there. -/
theorem exec_inv {i : Instr} {s : State} (h : s.Inv) (hl : Legal i s) : AnswersInv (exec i s) := by
  cases i with
  | init => exact perform_inv h hl (.inl rfl) mayRun_of_admitInit fun f ho hf => initStep_inv h hf ho
  | setTimeoutT ticks b =>
    exact perform_inv h hl (.inr rfl) (mayRun_of_admitCall rfl) fun f ho hf =>
      setTimeoutTStep_inv ticks h hf (by rw [ho]; rfl)
  | setTimeoutP ticks b =>
    exact perform_inv h hl (.inr rfl) (mayRun_of_admitCall rfl) fun f ho hf =>
      setTimeoutPStep_inv ticks h hf (by rw [ho]; rfl)
  | queryElapsedT =>
    exact perform_inv h hl (.inr rfl) (mayRun_of_admitCall rfl) fun f ho hf =>
      queryElapsedTStep_inv h hf (by rw [ho]; rfl)
  | queryElapsedP =>
    exact perform_inv h hl (.inr rfl) (mayRun_of_admitCall rfl) fun f ho hf =>
      queryElapsedPStep_inv h hf (by rw [ho]; rfl)
  | idleExitT =>
    exact perform_inv h hl (.inr rfl) (mayRun_of_admitCall rfl) fun f ho hf =>
      idleExitTStep_inv h hf (by rw [ho]; rfl)
  | idleExitP =>
    exact perform_inv h hl (.inr rfl) (mayRun_of_admitCall rfl) fun f ho hf =>
      idleExitPStep_inv h hf (by rw [ho]; rfl)
  | isrT => exact execIsrT_inv h hl
  | isrP => exact execIsrP_inv h hl
  | announce n => exact execAnnounce_inv h hl
  | iret => exact execIret_issued_inv h hl
  | rdCount => exact performPrimitive_inv h hl rfl fun f ho hk => rdCountStep_inv h ho hk
  | wrComp v =>
    refine performPrimitive_inv h hl rfl fun f ho hk => ?_
    refine waitStep_inv h (by rw [ho]; rfl) (by rw [ho]; rfl) hk fun u hu => ?_
    obtain ⟨-, rfl⟩ := postSync_eq_some hu
    exact h.post (by simp) (by simp)
  | waitSync =>
    refine performPrimitive_inv h hl rfl fun f ho hk => ?_
    refine waitStep_inv h (by rw [ho]; rfl) (by rw [ho]; rfl) hk fun u hu => ?_
    obtain ⟨-, rfl⟩ := awaitSync_eq_some hu
    exact h
  | wrCtrl c =>
    refine performPrimitive_inv h hl rfl fun f ho hk => ?_
    unfold wrCtrlStep
    split
    · next hm =>
      refine waitStep_inv h (by rw [ho]; rfl) (by rw [ho]; rfl) hk fun u hu => ?_
      obtain ⟨-, rfl⟩ := postSync_eq_some hu
      refine h.post (by simp) ?_
      rintro _ ⟨⟩
      exact hm
    · exact .refuse h _
  | irqUnlock key =>
    refine performPrimitive_inv h hl rfl fun f ho hk => ?_
    unfold irqUnlockStep
    split
    · exact oneStep_inv (by rw [ho]; rfl) hk h.of_eq
    · exact .refuse h _
  | stVar x v =>
    refine performPrimitive_inv h hl rfl fun f ho hk => oneStep_inv (by rw [ho]; rfl) hk ?_
    cases x <;> exact h.of_eq
  | _ => exact performPrimitive_inv h hl rfl fun f ho hk => oneStep_inv (by rw [ho]; rfl) hk h.of_eq

/-! ### The agents -/

theorem counterAgent_inv {s : State} (h : s.Inv) : (counterAgent s).Inv := by
  obtain ⟨n, f, k, e⟩ := counterAgent_frame s
  rw [e]
  exact h.of_eq

theorem syncUnit_inv {s : State} (h : s.Inv) : (syncUnit s).Inv := by
  obtain ⟨-, e⟩ | ⟨v, -, e⟩ | ⟨c, -, -, e⟩ | ⟨c, hc, hw, e⟩ | ⟨-, e⟩ := syncUnit_cases s
  · rw [e]
    exact h
  · rw [e]
    exact h.freed.of_eq
  · rw [e]
    exact { h with
      busy := by simp
      slot := by simp
      ctrl := fun _ => by simp [softwareReset, resetCtrl, Ctrl.modelled] }
  · rw [e]
    exact { h.freed with ctrl := fun _ => ⟨h.slot c hc, hw⟩ }
  · rw [e]
    exact h.freed.of_eq

/-- Interrupt entry starts the handler of the build. -/
theorem interruptEntry_inv {s : State} (h : s.Inv) : (interruptEntry s).Inv := by
  obtain ⟨he, e⟩ | ⟨-, e⟩ := interruptEntry_cases s
  · rw [e]
    refine { h with outside := by rintro ⟨⟩, handler := fun _ => ⟨_, rfl, start_inRange _, rfl⟩ }
  · rw [e]
    exact h

/-- The callback closes with no call in flight there. -/
theorem hostReturns_inv {s : State} (h : s.Inv) : (hostReturns s).Inv := by
  obtain ⟨-, hn, e⟩ | e := hostReturns_cases s
  · rw [e]
    refine { h with outside := fun hc => ?_, announcing := by simp, call := fun f hf => ?_ }
    · obtain ⟨hi, -, hk⟩ := h.outside hc
      exact ⟨hi, rfl, hk⟩
    · simp [hn] at hf
  · rw [e]
    exact h

/-! ### Every step -/

/-- Whatever the turn, it answers a next state that meets the invariant. -/
theorem takeTurn_inv {s : State} (h : s.Inv) (t : Turn) : ∃ u, takeTurn t s = .next u ∧ u.Inv := by
  have settles {o : Res} (ho : AnswersInv o) : ∃ u, settle o = .next u ∧ u.Inv := by
    obtain ⟨u, rfl, hu⟩ := ho
    exact ⟨latch u, rfl, hu.of_eq⟩
  cases t with
  | issue w =>
    refine settles ?_
    unfold issueWord
    split
    · exact .refuse h _
    · exact exec_inv h.of_eq (.host rfl)
  | proc =>
    refine settles ?_
    unfold proceed
    split
    · exact .next h
    · next i hi => exact exec_inv h.of_eq (.sequencer rfl hi)
  | program n =>
    refine settles ?_
    unfold programStep
    split
    · exact .next h
    · next i hi => exact exec_inv h.of_eq (.program n rfl hi)
  | counter => exact settles (.next (counterAgent_inv h))
  | sync => exact settles (.next (syncUnit_inv h))
  | enter => exact settles (.next (interruptEntry_inv h))
  | hostReturn => exact settles (.next (hostReturns_inv h))

/-- A machine that is not refused has a step, and the invariant holds after it. -/
theorem step_inv {s : State} (h : s.Inv) (hr : s.refused = false) : ∃ t, step s = .next t ∧ t.Inv := by
  cases hv : s.cfg.valid with
  | false => exact ⟨refuse .configInvalid s, by simp [step, stepTurn, hr, hv], h.of_eq⟩
  | true =>
    obtain ⟨ts, k, e⟩ := nextTurn_state s
    rw [step_running hr hv, e]
    exact takeTurn_inv (s := { s with sched := ts, fresh := k }) h.of_eq _

/-- Settles O11. -/
theorem stepKeepsTheInvariant : Obligations.StepKeepsTheInvariant := by
  intro s s' h hs
  obtain ⟨t, ht, hi⟩ := step_inv h (step_cases hs).1
  obtain rfl : t = s' := Host.Outcome.next.inj (ht.symm.trans hs)
  exact hi

/-- Settles O13: where the machine is refused it answers that it is halted. -/
theorem noStepFaults : Obligations.NoStepFaults := by
  intro s h
  refine ⟨fun r hf => ?_, fun hr => ?_⟩
  · cases hr : s.refused with
    | true => simp [step, stepTurn, hr] at hf
    | false =>
      obtain ⟨t, ht, -⟩ := step_inv h hr
      rw [ht] at hf
      cases hf
  · obtain ⟨t, ht, -⟩ := step_inv h hr
    exact ⟨t, ht⟩

end Sys2Proof.Machine
end

section
/-! PROOF. INIT under every interleaving (O46; 43 R186, 70 R231 to R235). The phase of INIT is kept by the agents'
turns; INIT's own turn goes to the next phase, or holds; a call issued meanwhile is refused. -/

namespace Sys2Proof.Machine

/-- From step 8 on, but for step 17, which a phase leaves by itself. -/
theorem lateStep_bounds {k n : Nat} (hn : 8 ≤ k ∧ n ≤ 20 ∧ (n = k ∨ (n = k + 1 ∧ k ≠ 17))) :
    (3 ≤ k ∧ 4 ≤ k ∧ 6 ≤ k ∧ 2 ≤ n) ∧ (n ≤ 17 → k ≤ 17) ∧ (n ≤ 18 → k ≤ 18) ∧ (18 ≤ n → 18 ≤ k) := by
  omega

section
variable {s t : State} {f g : Frame}

/-! ### Making a phase -/

/-- A phase does not speak of LOG, the mask, the handler's positions, the primitives, or the machine's own fields. -/
theorem State.InitPhase.of_eq (h : s.InitPhase f)
    (ht : t = { s with
      log := t.log, irqLocked := t.irqLocked, countSnap := t.countSnap, refused := t.refused, syncbusy := t.syncbusy,
      seqIsr := t.seqIsr, seqAnn := t.seqAnn, seqCall := t.seqCall, prims := t.prims, dest := t.dest,
      issuer := t.issuer, sched := t.sched, fresh := t.fresh } := by rfl) : t.InitPhase f := by
  rw [ht]
  exact { h with }

/-- The phases up to step 8 speak of the variables, INTEN and IRQ_PEND only. -/
theorem initPhase_early (n : Nat) (hk : g.k = n) (hn : 2 ≤ n ∧ n ≤ 8) (hc : t.ctx = .normal)
    (hq : t.seqNormal = some g) (ho : g.op = .init) (masked : t.irqEn = false ∧ t.inited = false)
    (mark : t.lastMark = 0) (tick : 3 ≤ n → t.tickCount = 0) (targ : 4 ≤ n → t.target = 0)
    (cleared : 6 ≤ n → t.inten = Flags.empty) (notPending : 8 ≤ n → t.irqPend = false) : t.InitPhase g := by
  subst hk
  exact {
    running := ⟨hc, hq, ho, hn.1, by omega⟩
    masked := masked
    mark := mark
    tick := tick
    targ := targ
    cleared := fun h _ => cleared h
    notPending := fun h _ => notPending h
    disabling := by omega
    disablingWait := by omega
    resetWait := by omega
    reset := by omega
    configureWait := by omega
    configured := by omega
    compWait := by omega
    compSet := by omega
    sources := by omega
    enableWait := by omega
    enabled := by omega }

/-- From step 8 on a phase is left or kept with the variables and INTEN as they are: what the slot, CTRL and COMP
hold is to be said for the step `n` alone. -/
theorem State.InitPhase.late (h : s.InitPhase f) (n : Nat) (hk : g.k = n)
    (hn : 8 ≤ f.k ∧ n ≤ 20 ∧ (n = f.k ∨ (n = f.k + 1 ∧ f.k ≠ 17)))
    (hq : t.seqNormal = some g) (ho : g.op = .init)
    (keeps : t.ctx = s.ctx ∧ t.irqEn = s.irqEn ∧ t.inited = s.inited ∧ t.lastMark = s.lastMark ∧
      t.tickCount = s.tickCount ∧ t.target = s.target ∧ t.inten = s.inten ∧ t.irqPend = s.irqPend ∧ t.cfg = s.cfg)
    (disabling : n = 9 ∨ n = 11 → t.syncOp = .none := by simp)
    (disablingWait : n = 10 → t.syncOp = .none ∨ t.syncOp = .writeCtrl resetCtrl := by simp)
    (resetWait : n = 12 → t.syncOp = .writeCtrl { resetCtrl with swrst := true } ∨
      (t.syncOp = .none ∧ t.FreshPeripheral ∧ t.ctrl = resetCtrl ∧ t.comp = 0) := by simp)
    (reset : n = 13 → t.syncOp = .none ∧ t.FreshPeripheral ∧ t.ctrl = resetCtrl ∧ t.comp = 0 := by simp)
    (configureWait : n = 14 → t.FreshPeripheral ∧ t.comp = 0 ∧
      ((t.syncOp = .writeCtrl (initCtrl t.cfg.mode false) ∧ t.ctrl = resetCtrl) ∨
        (t.syncOp = .none ∧ t.ctrl = initCtrl t.cfg.mode false)) := by simp)
    (configured : n = 15 → t.syncOp = .none ∧ t.FreshPeripheral ∧ t.comp = 0 ∧
      t.ctrl = initCtrl t.cfg.mode false := by simp)
    (compWait : n = 16 → t.FreshPeripheral ∧ t.ctrl = initCtrl t.cfg.mode false ∧
      ((t.syncOp = .writeComp (initComp t.cfg) ∧ t.cfg.mode = .periodic) ∨
        (t.syncOp = .none ∧ t.comp = initComp t.cfg)) := by simp)
    (compSet : n = 17 ∨ n = 18 → t.syncOp = .none ∧ t.FreshPeripheral ∧ t.comp = initComp t.cfg ∧
      t.ctrl = initCtrl t.cfg.mode false := by simp)
    (enableWait : n = 19 → t.swrstLanded = true ∧ t.comp = initComp t.cfg ∧
      ((t.syncOp = .writeCtrl (initCtrl t.cfg.mode true) ∧ t.FreshPeripheral ∧
          t.ctrl = initCtrl t.cfg.mode false) ∨
        (t.syncOp = .none ∧ t.ctrl = initCtrl t.cfg.mode true)) := by simp)
    (enabled : n = 20 → t.swrstLanded = true ∧ t.comp = initComp t.cfg ∧ t.syncOp = .none ∧
      t.ctrl = initCtrl t.cfg.mode true := by simp) : t.InitPhase g := by
  subst hk
  obtain ⟨hc, he, hi, hm, htk, htg, hen, hp, hcfg⟩ := keeps
  obtain ⟨⟨h3, h4, h6, h2⟩, h17, h18, hs⟩ := lateStep_bounds hn
  exact {
    running := ⟨hc.trans h.running.1, hq, ho, h2, hn.2.1⟩
    masked := ⟨he.trans h.masked.1, hi.trans h.masked.2⟩
    mark := hm.trans h.mark
    tick := fun _ => htk.trans (h.tick h3)
    targ := fun _ => htg.trans (h.targ h4)
    cleared := fun _ hk => hen.trans (h.cleared h6 (h17 hk))
    notPending := fun _ hk => hp.trans (h.notPending hn.1 (h18 hk))
    disabling := disabling
    disablingWait := disablingWait
    resetWait := resetWait
    reset := reset
    configureWait := configureWait
    configured := configured
    compWait := compWait
    compSet := compSet
    sources := fun hk => by rw [hen, hcfg]; exact h.sources (hs hk)
    enableWait := enableWait
    enabled := enabled }

/-! ### The latch -/

/-- In the phases that claim IRQ_PEND clear the level is not asserted: INTEN or INTFLAG is empty. -/
theorem State.InitPhase.latched (h : s.InitPhase f) : (latch s).InitPhase f := by
  cases hl : s.level with
  | false =>
    rw [show latch s = s by simp [latch, hl]]
    exact h
  | true =>
    rw [level_eq] at hl
    have hten : ¬ (6 ≤ f.k ∧ f.k ≤ 17) := by
      rintro ⟨h6, h17⟩
      rw [h.cleared h6 h17] at hl
      simp [Flags.empty] at hl
    have hfresh : ¬ s.FreshPeripheral := by
      rintro ⟨-, -, hf, -⟩
      rw [hf] at hl
      simp [Flags.empty] at hl
    have h18 : f.k ≠ 18 := fun hk => hfresh (h.compSet (.inr hk)).2.1
    refine { h with
      notPending := by omega
      resetWait := by omega
      reset := by omega
      configureWait := by omega
      configured := by omega
      compWait := by omega
      compSet := by omega
      enableWait := fun hk => ?_ }
    obtain ⟨hw, hc, ⟨-, hfr, -⟩ | hr⟩ := h.enableWait hk
    · exact absurd hfr hfresh
    · exact ⟨hw, hc, .inr hr⟩

/-! ### The agents -/

/-- Where a phase says that the peripheral is as the software reset left it, the counter is disabled. -/
theorem State.InitPhase.counter (h : s.InitPhase f) : (counterAgent s).InitPhase f := by
  by_cases hd : s.swrstLanded = true ∧ s.ctrl.enable = false
  · rw [counterAgent_disabled hd.1 hd.2]
    exact h
  obtain ⟨n, fl, k, e⟩ := counterAgent_frame s
  rw [e]
  have hreset : ¬ (s.FreshPeripheral ∧ s.ctrl = resetCtrl) := by
    rintro ⟨⟨hw, -⟩, hc⟩
    exact hd ⟨hw, by rw [hc]; rfl⟩
  have hinit : ¬ (s.FreshPeripheral ∧ s.ctrl = initCtrl s.cfg.mode false) := by
    rintro ⟨⟨hw, -⟩, hc⟩
    exact hd ⟨hw, by rw [hc]; rfl⟩
  refine { h with
    resetWait := fun hk => ?_
    reset := fun hk => ?_
    configureWait := fun hk => ?_
    configured := fun hk => ?_
    compWait := fun hk => ?_
    compSet := fun hk => ?_
    enableWait := fun hk => ?_ }
  · obtain hw | ⟨-, hf, hc, -⟩ := h.resetWait hk
    · exact .inl hw
    · exact absurd ⟨hf, hc⟩ hreset
  · obtain ⟨-, hf, hc, -⟩ := h.reset hk
    exact absurd ⟨hf, hc⟩ hreset
  · obtain ⟨hf, -, ⟨-, hc⟩ | ⟨-, hc⟩⟩ := h.configureWait hk
    · exact absurd ⟨hf, hc⟩ hreset
    · exact absurd ⟨hf, hc⟩ hinit
  · obtain ⟨-, hf, -, hc⟩ := h.configured hk
    exact absurd ⟨hf, hc⟩ hinit
  · obtain ⟨hf, hc, -⟩ := h.compWait hk
    exact absurd ⟨hf, hc⟩ hinit
  · obtain ⟨-, hf, -, hc⟩ := h.compSet hk
    exact absurd ⟨hf, hc⟩ hinit
  · obtain ⟨hw, hm, ⟨-, hf, hc⟩ | hr⟩ := h.enableWait hk
    · exact absurd ⟨hf, hc⟩ hinit
    · exact ⟨hw, hm, .inr hr⟩

/-- From step 9 on only INIT's own accesses wait in the slot, at the steps that await them. -/
theorem State.InitPhase.slot (h : s.InitPhase f) (hk : 9 ≤ f.k) (hs : s.syncOp ≠ .none) :
    (f.k = 10 ∧ s.syncOp = .writeCtrl resetCtrl) ∨
    (f.k = 12 ∧ s.syncOp = .writeCtrl { resetCtrl with swrst := true }) ∨
    (f.k = 14 ∧ s.syncOp = .writeCtrl (initCtrl s.cfg.mode false)) ∨
    (f.k = 16 ∧ s.syncOp = .writeComp (initComp s.cfg)) ∨
    (f.k = 19 ∧ s.syncOp = .writeCtrl (initCtrl s.cfg.mode true)) := by
  obtain ⟨-, -, -, -, h20⟩ := h.running
  have cases : f.k = 9 ∨ f.k = 10 ∨ f.k = 11 ∨ f.k = 12 ∨ f.k = 13 ∨ f.k = 14 ∨ f.k = 15 ∨ f.k = 16 ∨
    f.k = 17 ∨ f.k = 18 ∨ f.k = 19 ∨ f.k = 20 := by omega
  obtain k | k | k | k | k | k | k | k | k | k | k | k := cases
  · exact absurd (h.disabling (.inl k)) hs
  · exact .inl ⟨k, (h.disablingWait k).resolve_left hs⟩
  · exact absurd (h.disabling (.inr k)) hs
  · exact .inr (.inl ⟨k, (h.resetWait k).resolve_right fun hr => hs hr.1⟩)
  · exact absurd (h.reset k).1 hs
  · obtain ⟨-, -, ⟨hw, -⟩ | ⟨hw, -⟩⟩ := h.configureWait k
    · exact .inr (.inr (.inl ⟨k, hw⟩))
    · exact absurd hw hs
  · exact absurd (h.configured k).1 hs
  · obtain ⟨-, -, ⟨hw, -⟩ | ⟨hw, -⟩⟩ := h.compWait k
    · exact .inr (.inr (.inr (.inl ⟨k, hw⟩)))
    · exact absurd hw hs
  · exact absurd (h.compSet (.inl k)).1 hs
  · exact absurd (h.compSet (.inr k)).1 hs
  · obtain ⟨-, -, ⟨hw, -⟩ | ⟨hw, -⟩⟩ := h.enableWait k
    · exact .inr (.inr (.inr (.inr ⟨k, hw⟩)))
    · exact absurd hw hs
  · exact absurd (h.enabled k).2.2.1 hs

/-- A phase up to step 8 is kept by whatever leaves the variables, the controller and an empty INTEN. -/
theorem State.InitPhase.early (h : s.InitPhase f) (hk : f.k ≤ 8) (hc : t.ctx = s.ctx := by rfl)
    (hq : t.seqNormal = s.seqNormal := by rfl) (he : t.irqEn = s.irqEn := by rfl)
    (hi : t.inited = s.inited := by rfl) (hm : t.lastMark = s.lastMark := by rfl)
    (htk : t.tickCount = s.tickCount := by rfl) (htg : t.target = s.target := by rfl)
    (hp : t.irqPend = s.irqPend := by rfl)
    (hten : s.inten = Flags.empty → t.inten = Flags.empty := by exact id) : t.InitPhase f := by
  obtain ⟨hx, hn, ho, h2, h20⟩ := h.running
  exact initPhase_early f.k rfl ⟨h2, hk⟩ (hc.trans hx) (hq.trans hn) ho ⟨he.trans h.masked.1, hi.trans h.masked.2⟩
    (hm.trans h.mark) (fun hk => htk.trans (h.tick hk)) (fun hk => htg.trans (h.targ hk))
    (fun h6 => hten (h.cleared h6 (by omega))) (fun h8 => hp.trans (h.notPending h8 (by omega)))

/-- The synchronisation unit lands what the phase awaits. -/
theorem State.InitPhase.sync (h : s.InitPhase f) : (syncUnit s).InitPhase f := by
  by_cases hs : s.syncOp = .none
  · rw [syncUnit_empty hs]
    exact h
  by_cases hk : f.k ≤ 8
  · obtain ⟨-, e⟩ | ⟨_, -, e⟩ | ⟨_, -, -, e⟩ | ⟨_, -, -, e⟩ | ⟨-, e⟩ := syncUnit_cases s
    case inr.inr.inl =>
      rw [e]
      exact h.early hk (hten := fun _ => rfl)
    all_goals
      rw [e]
      exact h.early hk
  obtain ⟨-, hq, ho, -, -⟩ := h.running
  obtain ⟨k, hw⟩ | ⟨k, hw⟩ | ⟨k, hw⟩ | ⟨k, hw⟩ | ⟨k, hw⟩ := h.slot (by omega) hs
  · rw [syncUnit_writeCtrl hw rfl]
    exact h.late 10 k (by simp [k]) hq ho (by simp) (disablingWait := fun _ => .inl rfl)
  · rw [syncUnit_reset hw rfl]
    refine h.late 12 k (by simp [k]) hq ho (by simp [h.cleared (by omega) (by omega)]) (resetWait := fun _ => .inr ?_)
    exact ⟨rfl, ⟨rfl, rfl, rfl, h.notPending (by omega) (by omega)⟩, rfl, rfl⟩
  · rw [syncUnit_writeCtrl hw rfl]
    obtain ⟨hf, hc, -⟩ := h.configureWait k
    exact h.late 14 k (by simp [k]) hq ho (by simp) (configureWait := fun _ => ⟨hf, hc, .inr ⟨rfl, rfl⟩⟩)
  · rw [syncUnit_writeComp hw]
    obtain ⟨hf, hc, -⟩ := h.compWait k
    exact h.late 16 k (by simp [k]) hq ho (by simp) (compWait := fun _ => ⟨hf, hc, .inr ⟨rfl, rfl⟩⟩)
  · rw [syncUnit_writeCtrl hw rfl]
    obtain ⟨hl, hc, -⟩ := h.enableWait k
    exact h.late 19 k (by simp [k]) hq ho (by simp) (enableWait := fun _ => ⟨hl, hc, .inr ⟨rfl, rfl⟩⟩)

/-- Entry is disabled throughout. -/
theorem State.InitPhase.enter (h : s.InitPhase f) : interruptEntry s = s := by
  obtain ⟨he, -⟩ | ⟨-, e⟩ := interruptEntry_cases s
  · obtain ⟨-, hen, -⟩ := (entryEnabled_iff s).1 he
    rw [h.masked.1] at hen
    cases hen
  · exact e

/-! ### INIT's own steps -/

/-- What a turn may lead to: the same phase or the next, or, from step 20, what 70 R233 and R234 say. -/
def InitProgress (f : Frame) (t : State) : Prop :=
  (∃ g, t.InitPhase g ∧ (g.k = f.k ∨ g.k = f.k + 1)) ∨ (f.k = 20 ∧ t.InitEnds)

theorem initProgress_next (h : t.InitPhase g) (hk : g.k = f.k + 1) : InitProgress f t :=
  .inl ⟨g, h, .inr hk⟩

/-- A step that awaits the slot leaves the phase as it is, or goes on with the slot empty. -/
theorem await_progress {go : State → State} (h : s.InitPhase f)
    (hg : s.syncOp = .none → InitProgress f (go s)) : Answers (InitProgress f) (orHold f s (awaitSync s) go) := by
  obtain ⟨hc, hq, -⟩ := h.running
  by_cases hs : s.syncOp = .none
  · rw [orHold_goes hs]
    exact .next (hg hs)
  · rw [awaitSync_of_busy hs, orHold_held (by simp [State.callFrame, hc, hq])]
    exact .next (.inl ⟨f, h, .inl rfl⟩)

/-- A step that posts an access goes on with it in the slot. -/
theorem post_progress {op : SyncOp} {go : State → State} (h : s.InitPhase f)
    (hg : InitProgress f (go { s with syncOp := op, syncbusy := true })) :
    Answers (InitProgress f) (orHold f s (postSync op s) go) := by
  obtain ⟨hc, hq, -⟩ := h.running
  by_cases hs : s.syncOp = .none
  · rw [orHold_posts hs]
    exact .next hg
  · rw [postSync_of_busy hs, orHold_held (by simp [State.callFrame, hc, hq])]
    exact .next (.inl ⟨f, h, .inl rfl⟩)

/-- The next phase up to step 8, after a step that writes variables, INTEN, INTFLAG, IRQ_EN or IRQ_PEND. -/
theorem goto_early {u : State} (h : s.InitPhase f) (n : Nat) (hk : f.k + 1 = n) (hn : n ≤ 8)
    (he : u.irqEn = false) (tick : u.tickCount = 0) (targ : 4 ≤ n → u.target = 0 := by simp)
    (cleared : 6 ≤ n → u.inten = Flags.empty := by simp) (notPending : 8 ≤ n → u.irqPend = false := by simp)
    (hc : u.ctx = s.ctx := by rfl) (hi : u.inited = s.inited := by rfl) (hm : u.lastMark = s.lastMark := by rfl) :
    InitProgress f (u.setCall (some { f with k := n })) := by
  obtain ⟨hx, -, ho, h2, -⟩ := h.running
  refine initProgress_next (g := { f with k := n }) ?_ hk.symm
  exact initPhase_early n rfl (by omega) (hc.trans hx) (by simp [hc, hx]) ho ⟨he, hi.trans h.masked.2⟩
    (hm.trans h.mark) (fun _ => tick) targ cleared notPending

/-- Every turn of INIT before its last makes the next phase, or holds. -/
theorem initStep_progress (h : s.InitPhase f) : Answers (InitProgress f) (initStep f s) := by
  obtain ⟨hc, hq, ho, h2, h20⟩ := h.running
  have hnormal (u : State) (hu : u.ctx = s.ctx) (g : Frame) : (u.setCall (some g)).seqNormal = some g := by
    simp [hu, hc]
  unfold initStep
  split
  case h_1 k => omega
  case h_2 k => exact .next (goto_early h 3 (by omega) (by omega) h.masked.1 rfl)
  case h_3 k => exact .next (goto_early h 4 (by omega) (by omega) h.masked.1 (h.tick (by omega)) (fun _ => rfl))
  case h_4 k =>
    exact .next (goto_early h 5 (by omega) (by omega) rfl (h.tick (by omega)) (fun _ => h.targ (by omega)))
  case h_5 k =>
    exact .next (goto_early h 6 (by omega) (by omega) h.masked.1 (h.tick (by omega)) (fun _ => h.targ (by omega))
      (fun _ => by simp [Flags.diff, Flags.both, Flags.empty]))
  case h_6 k =>
    exact .next (goto_early h 7 (by omega) (by omega) h.masked.1 (h.tick (by omega)) (fun _ => h.targ (by omega))
      (fun _ => h.cleared (by omega) (by omega)))
  case h_7 k =>
    exact .next (goto_early h 8 (by omega) (by omega) h.masked.1 (h.tick (by omega)) (fun _ => h.targ (by omega))
      (fun _ => h.cleared (by omega) (by omega)) (fun _ => rfl))
  case h_8 k =>
    refine await_progress h fun hs => initProgress_next (g := { f with k := 9 }) ?_ (by simp [k])
    exact h.late 9 rfl (by simp [k]) (hnormal s rfl _) ho (by simp) (disabling := fun _ => hs)
  case h_9 k =>
    refine post_progress h (initProgress_next (g := { f with k := 10 }) ?_ (by simp [k]))
    exact h.late 10 rfl (by simp [k]) (hnormal _ rfl _) ho (by simp) (disablingWait := fun _ => .inr rfl)
  case h_10 k =>
    refine await_progress h fun hs => initProgress_next (g := { f with k := 11 }) ?_ (by simp [k])
    exact h.late 11 rfl (by simp [k]) (hnormal s rfl _) ho (by simp) (disabling := fun _ => hs)
  case h_11 k =>
    refine post_progress h (initProgress_next (g := { f with k := 12 }) ?_ (by simp [k]))
    exact h.late 12 rfl (by simp [k]) (hnormal _ rfl _) ho (by simp) (resetWait := fun _ => .inl rfl)
  case h_12 k =>
    refine await_progress h fun hs => initProgress_next (g := { f with k := 13 }) ?_ (by simp [k])
    have hr := (h.resetWait k).resolve_left (by simp [hs])
    exact h.late 13 rfl (by simp [k]) (hnormal s rfl _) ho (by simp) (reset := fun _ => hr)
  case h_13 k =>
    refine post_progress h (initProgress_next (g := { f with k := 14 }) ?_ (by simp [k]))
    obtain ⟨-, hf, hr, hm⟩ := h.reset k
    exact h.late 14 rfl (by simp [k]) (hnormal _ rfl _) ho (by simp)
      (configureWait := fun _ => ⟨hf, hm, .inl ⟨rfl, hr⟩⟩)
  case h_14 k =>
    refine await_progress h fun hs => initProgress_next (g := { f with k := 15 }) ?_ (by simp [k])
    obtain ⟨hf, hm, ⟨hw, -⟩ | ⟨-, hr⟩⟩ := h.configureWait k
    · simp [hs] at hw
    · exact h.late 15 rfl (by simp [k]) (hnormal s rfl _) ho (by simp) (configured := fun _ => ⟨hs, hf, hm, hr⟩)
  case h_15 k =>
    obtain ⟨hs, hf, hm, hr⟩ := h.configured k
    split
    · next hp =>
      refine post_progress h (initProgress_next (g := { f with k := 16 }) ?_ (by simp [k]))
      exact h.late 16 rfl (by simp [k]) (hnormal _ rfl _) ho (by simp)
        (compWait := fun _ => ⟨hf, hr, .inl ⟨by simp [initComp, hp], hp⟩⟩)
    · next hp =>
      refine .next (initProgress_next (g := { f with k := 16 }) ?_ (by simp [k]))
      exact h.late 16 rfl (by simp [k]) (hnormal _ rfl _) ho (by simp)
        (compWait := fun _ => ⟨hf, hr, .inr ⟨hs, by simp [initComp, hp, hm]⟩⟩)
  case h_16 k =>
    refine await_progress h fun hs => initProgress_next (g := { f with k := 17 }) ?_ (by simp [k])
    obtain ⟨hf, hr, ⟨hw, -⟩ | ⟨-, hm⟩⟩ := h.compWait k
    · simp [hs] at hw
    · exact h.late 17 rfl (by simp [k]) (hnormal s rfl _) ho (by simp) (compSet := fun _ => ⟨hs, hf, hm, hr⟩)
  case h_17 k =>
    refine .next (initProgress_next (g := { f with k := 18 }) ?_ (by simp [k]))
    have hset := h.compSet (.inl k)
    have hu : s.inten.union (modeFlags s.cfg.mode) = modeFlags s.cfg.mode := by
      simp [h.cleared (by omega) (by omega), Flags.union, Flags.empty]
    exact {
      running := ⟨hc, hnormal _ rfl _, ho, by simp, by simp⟩
      masked := h.masked
      mark := h.mark
      tick := fun _ => h.tick (by omega)
      targ := fun _ => h.targ (by omega)
      cleared := by simp
      notPending := fun _ _ => h.notPending (by omega) (by omega)
      disabling := by simp
      disablingWait := by simp
      resetWait := by simp
      reset := by simp
      configureWait := by simp
      configured := by simp
      compWait := by simp
      compSet := fun _ => hset
      sources := fun _ => hu
      enableWait := by simp
      enabled := by simp }
  case h_18 k =>
    refine post_progress h (initProgress_next (g := { f with k := 19 }) ?_ (by simp [k]))
    obtain ⟨-, hf, hm, hr⟩ := h.compSet (.inr k)
    exact h.late 19 rfl (by simp [k]) (hnormal _ rfl _) ho (by simp)
      (enableWait := fun _ => ⟨hf.1, hm, .inl ⟨rfl, hf, hr⟩⟩)
  case h_19 k =>
    refine await_progress h fun hs => initProgress_next (g := { f with k := 20 }) ?_ (by simp [k])
    obtain ⟨hl, hm, ⟨hw, -⟩ | ⟨-, hr⟩⟩ := h.enableWait k
    · simp [hs] at hw
    · exact h.late 20 rfl (by simp [k]) (hnormal s rfl _) ho (by simp) (enabled := fun _ => ⟨hl, hm, hs, hr⟩)
  case h_20 k =>
    obtain ⟨hl, hm, hs, hr⟩ := h.enabled k
    refine .next (.inr ⟨k, ⟨_, hnormal _ rfl _, ho, rfl⟩, hc, rfl, h.mark, h.tick (by omega), h.targ (by omega), hm, hr,
      h.sources (by omega), hs⟩)
  case h_21 k => omega
  case h_22 => simp only [imp_false] at *; omega

/-! ### A turn of the machine in a phase of INIT -/

/-- The host's calls are refused meanwhile: INIT has not ended, and the normal context is not idle. -/
theorem issued_during_init {i : Instr} {x : State} (h : s.InitPhase f) (hs : s.issuer = .host)
    (hr : roleOf i ≠ .primitive) (he : exec i s = .next x) : x.refused = true := by
  obtain ⟨hc, hq, -⟩ := h.running
  have refuses {r : Reason} (hx : exec i s = .next (refuse r s)) : x.refused = true := by
    rw [Host.Outcome.next.inj (he.symm.trans hx)]
    rfl
  obtain ⟨rt, ht⟩ := admitCall_of_not_inited (m := .tickless) h.masked.2
  obtain ⟨rp, hp⟩ := admitCall_of_not_inited (m := .periodic) h.masked.2
  cases i with
  | init =>
    have ha : admitInit s = some .concurrentCall := by simp [admitInit, h.masked.2, hc, hq]
    exact refuses (r := .concurrentCall) (by simp only [exec, execInit, ha, perform_refused hs])
  | setTimeoutT t b => exact refuses (exec_ticklessCall_refused (t := t) (b := b) hs ht (by simp))
  | queryElapsedT | idleExitT => exact refuses (exec_ticklessCall_refused (t := 0) (b := false) hs ht (by simp))
  | setTimeoutP t b => exact refuses (exec_periodicCall_refused (t := t) (b := b) hs hp (by simp))
  | queryElapsedP | idleExitP => exact refuses (exec_periodicCall_refused (t := 0) (b := false) hs hp (by simp))
  | announce n => exact refuses (exec_handlerOp_refused (n := n) hs (by simp))
  | isrT | isrP | iret => exact refuses (exec_handlerOp_refused (n := 0) hs (by simp))
  | _ => exact absurd rfl hr

/-- Only primitives are a test program's to advance. -/
theorem exec_program {i : Instr} {n : Nat} {x : State} (hs : s.issuer = .program n) (he : exec i s = .next x) :
    roleOf i = .primitive := by
  cases i with
  | init | setTimeoutT | queryElapsedT | idleExitT | setTimeoutP | queryElapsedP | idleExitP =>
    obtain ⟨r, hx, -⟩ | ⟨hx, -⟩ | ⟨_, hx, -⟩ := perform_cases he <;> simp [hs] at hx
  | announce => simp [exec, execAnnounce, hs] at he
  | isrT => simp [exec, execIsrT, hs] at he
  | isrP => simp [exec, execIsrP, hs] at he
  | iret => simp [exec, execIret, hs] at he
  | _ => rfl

end

/-- The latch leaves what 70 R233 and R234 say. -/
theorem initProgress_latched {f : Frame} {t : State} (h : InitProgress f t) : InitProgress f (latch t) := by
  obtain ⟨g, hg, hk⟩ | h := h
  · exact .inl ⟨g, hg.latched, hk⟩
  · exact .inr h

/-- Settles O46. -/
theorem initProtocolHoldsUnderEveryInterleaving : Obligations.InitProtocolHoldsUnderEveryInterleaving := by
  intro s f s' hp hprim h
  obtain ⟨ts, k, hn⟩ := nextTurn_state s
  obtain ⟨-, ⟨-, rfl⟩ | ⟨-, u, rfl, hu⟩⟩ := step_turns h
  · exact .inl rfl
  rw [hn] at hu
  obtain ⟨hc, hq, ho, -, -⟩ := hp.running
  have hturn (x : Issuer) : State.InitPhase { s with sched := ts, fresh := k, issuer := x } f := hp.of_eq
  have stays {v : State} (hv : v.InitPhase f) : InitProgress f v := .inl ⟨f, hv, .inl rfl⟩
  have progress (hv : InitProgress f u) : _ := initProgress_latched hv
  obtain ⟨w, e, -, -, -, rfl⟩ | ⟨w, i, -, -, hi, he⟩ | ⟨i, -, hi, -, he⟩ | ⟨-, hi, -, -⟩ |
    ⟨n, i, -, -, hi, he⟩ | ⟨n, -, -, -, rfl⟩ | ⟨-, -, rfl⟩ | ⟨-, -, rfl⟩ | ⟨-, -, rfl⟩ |
    ⟨-, -, rfl⟩ := hu
  · exact .inl rfl
  · exact .inl (issued_during_init (x := u) (hturn .host) rfl (hprim i hi) he)
  · obtain rfl : Instr.init = i := by simpa [State.currentOp, hc, hq, ho] using hi
    rw [exec_init_sequencer (f := f) rfl (by simpa [State.callFrame, hc] using hq)] at he
    exact .inr (progress ((initStep_progress (hturn .sequencer)).of_next u he))
  · simp [State.currentOp, hc, hq] at hi
  · exact absurd (exec_program rfl he) (hprim i hi)
  · exact .inr (progress (stays (hturn s.issuer)))
  · exact .inr (progress (stays (hturn s.issuer).counter))
  · exact .inr (progress (stays (hturn s.issuer).sync))
  · rw [(hturn s.issuer).enter]
    exact .inr (initProgress_latched (stays (hturn s.issuer)))
  · obtain ⟨-, -, e⟩ | e := hostReturns_cases { s with sched := ts, fresh := k }
    · rw [e]
      exact .inr (initProgress_latched (stays hp.of_eq))
    · rw [e]
      exact .inr (initProgress_latched (stays (hturn s.issuer)))

end Sys2Proof.Machine
end

section
/-! PROOF. Whole operations: SET_TIMEOUT.P as a critical section (O58), SET_TIMEOUT.T (O52), ISR.T (O56). -/

namespace Sys2Proof.Machine

/-! ### Given turns -/

/-- A processor turn performs the step of the call in flight. -/
theorem takeTurn_proc {s : State} {f : Frame} (hf : s.callFrame = some f) :
    takeTurn .proc s = settle (exec f.op { s with issuer := .sequencer }) := by
  simp [takeTurn, proceed, currentOp_of_callFrame hf]

/-- The word of a well-formed operation is performed as the host's call. -/
theorem takeTurn_issue {s : State} {i : Instr} (hi : i.wf = true) :
    takeTurn (.issue (encode i)) s = settle (exec i { s with issuer := .host }) := by
  simp [takeTurn, issueWord, decode_encode hi]

theorem seqNormal_setCall {s : State} {o : Option Frame} (h : s.ctx = .normal) : (s.setCall o).seqNormal = o := by
  simp [h]

theorem exec_setTimeoutP_sequencer {ticks : Word} {b : Bool} {s : State} {f : Frame}
    (h : s.issuer = .sequencer) (hf : s.callFrame = some f) :
    exec (.setTimeoutP ticks b) s = setTimeoutPStep ticks f s :=
  perform_sequencer h hf

/-! ### SET_TIMEOUT.P (42 R161, 70 R240) -/

/-- SET_TIMEOUT.P, issued at `s`, stands at its step `k`, the mask set. -/
structure InSection (s : State) (ticks : Word) (b : Bool) (k : Nat) (t : State) : Prop where
  running : t.Running
  normal : t.ctx = .normal
  locked : t.irqLocked = true
  kept : t.tickCount = s.tickCount ∧ t.lastMark = s.lastMark ∧ t.log = s.log
  frame : ∃ f, t.seqNormal = some f ∧ f.op = .setTimeoutP ticks b ∧ f.k = k ∧ f.key = s.lockKey ∧
    (3 ≤ k → f.tick = s.tickCount)
  target : 4 ≤ k → t.target = if ticks.toInt < 0 then s.tickCount else s.tickCount + ticks

section
variable {s t : State} {ticks : Word} {b : Bool} {k : Nat}

/-- What the counter, the synchronisation unit and an entry that the mask disables do not write. -/
theorem InSection.of_eq {u : State} (h : InSection s ticks b k t) (hr : u.refused = t.refused := by rfl)
    (hm : u.cfg = t.cfg := by rfl) (hc : u.ctx = t.ctx := by rfl) (hl : u.irqLocked = t.irqLocked := by rfl)
    (ht : u.tickCount = t.tickCount := by rfl) (hk : u.lastMark = t.lastMark := by rfl)
    (ho : u.log = t.log := by rfl) (hq : u.seqNormal = t.seqNormal := by rfl) (hg : u.target = t.target := by rfl) :
    InSection s ticks b k u where
  running := by rw [State.Running, hr, hm]; exact h.running
  normal := hc.trans h.normal
  locked := hl.trans h.locked
  kept := by rw [ht, hk, ho]; exact h.kept
  frame := by rw [hq]; exact h.frame
  target := by rw [hg]; exact h.target

theorem InSection.turn {t' : Turn} (h : InSection s ticks b k t) (ht : t' = .counter ∨ t' = .sync ∨ t' = .enter) :
    ∃ u, takeTurn t' t = .next u ∧ InSection s ticks b k u := by
  obtain rfl | rfl | rfl := ht
  · obtain ⟨n, f, j, e⟩ := counterAgent_frame t
    refine ⟨latch (counterAgent t), rfl, ?_⟩
    rw [e]
    exact h.of_eq
  · refine ⟨latch (syncUnit t), rfl, ?_⟩
    obtain ⟨-, e⟩ | ⟨_, -, e⟩ | ⟨_, -, -, e⟩ | ⟨_, -, -, e⟩ | ⟨-, e⟩ := syncUnit_cases t
    all_goals
      rw [e]
      exact h.of_eq
  · refine ⟨latch (interruptEntry t), rfl, ?_⟩
    obtain ⟨he, -⟩ | ⟨-, e⟩ := interruptEntry_cases t
    · obtain ⟨-, -, hl, -⟩ := (entryEnabled_iff t).1 he
      simp [h.locked] at hl
    · rw [e]
      exact h.of_eq

theorem InSection.turns {ts : List Turn} (h : InSection s ticks b k t)
    (hq : ∀ t' ∈ ts, t' = .counter ∨ t' = .sync ∨ t' = .enter) :
    ∃ u, runTurns ts t = .next u ∧ InSection s ticks b k u := by
  induction ts generalizing t with
  | nil => exact ⟨t, rfl, h⟩
  | cons t' ts ih =>
    obtain ⟨u, hu, hs⟩ := h.turn (hq t' (by simp))
    rw [runTurns_cons ts h.running hu]
    exact ih hs fun x hx => hq x (by simp [hx])

/-- The processor's turn in the section, by its line of `setTimeoutPStep`. -/
theorem InSection.proc (h : InSection s ticks b k t) : ∃ f, t.seqNormal = some f ∧ f.op = .setTimeoutP ticks b ∧
    f.k = k ∧ f.key = s.lockKey ∧ (3 ≤ k → f.tick = s.tickCount) ∧
    runTurns [.proc] t = settle (setTimeoutPStep ticks f { t with issuer := .sequencer }) := by
  obtain ⟨f, hf, ho, hk, hkey, htick⟩ := h.frame
  have hcall : t.callFrame = some f := by simp [State.callFrame, h.normal, hf]
  refine ⟨f, hf, ho, hk, hkey, htick, ?_⟩
  simp only [runTurns, step_given h.running, takeTurn_proc hcall, ho]
  rw [exec_setTimeoutP_sequencer (s := { t with issuer := .sequencer }) rfl hcall]
  cases settle (setTimeoutPStep ticks f { t with issuer := .sequencer }) <;> rfl

/-- Issued with ticks other than 0 it enters the section. -/
theorem section_entered (hr : s.Running) (hc : s.ctx = .normal) (hn : s.seqNormal = none)
    (hm : s.cfg.mode = .periodic) (hi : s.inited = true) (h0 : ticks ≠ 0) :
    ∃ u, runTurns [.issue (encode (.setTimeoutP ticks b))] s = .next u ∧ InSection s ticks b 2 u := by
  have ha : State.AcceptsCall .periodic { s with issuer := .host } := ⟨rfl, hm, hi, .inl ⟨hc, hn⟩⟩
  have he : exec (.setTimeoutP ticks b) { s with issuer := .host } =
      setTimeoutPStep ticks (Frame.start (.setTimeoutP ticks b)) { s with issuer := .host } := perform_accepted ha
  have hne : ticksOf ticks ≠ 0 := fun h => h0 (ticksOf_eq_zero.1 h)
  have ht := takeTurn_issue (s := s) (i := .setTimeoutP ticks b) rfl
  rw [he] at ht
  simp only [setTimeoutPStep, Frame.start, hne, ↓reduceIte, settle_next] at ht
  refine ⟨_, runTurns_cons [] hr ht, ?_⟩
  exact {
    running := hr
    normal := hc
    locked := rfl
    kept := ⟨rfl, rfl, rfl⟩
    frame := ⟨_, seqNormal_setCall (by exact hc), rfl, rfl, rfl, by simp⟩
    target := by simp }

theorem section_reads (h : InSection s ticks b 2 t) :
    ∃ u, runTurns [.proc] t = .next u ∧ InSection s ticks b 3 u := by
  obtain ⟨f, -, ho, hk, hkey, -, hrun⟩ := h.proc
  rw [hrun]
  simp only [setTimeoutPStep, hk, settle_next]
  refine ⟨_, rfl, ?_⟩
  exact {
    running := h.running
    normal := h.normal
    locked := h.locked
    kept := h.kept
    frame := ⟨{ f with k := 3, tick := t.tickCount }, by simp [h.normal], ho, rfl, hkey, fun _ => h.kept.1⟩
    target := by simp }

theorem section_writes (h : InSection s ticks b 3 t) :
    ∃ u, runTurns [.proc] t = .next u ∧ InSection s ticks b 4 u := by
  obtain ⟨f, -, ho, hk, hkey, htick, hrun⟩ := h.proc
  have ht : f.tick = s.tickCount := htick (Nat.le_refl 3)
  rw [hrun]
  simp only [setTimeoutPStep, hk]
  by_cases hneg : ticksOf ticks < 0
  · simp only [hneg, ↓reduceIte, settle_next]
    refine ⟨_, rfl, ?_⟩
    exact {
      running := h.running
      normal := h.normal
      locked := h.locked
      kept := h.kept
      frame := ⟨{ f with k := 4 }, by simp [h.normal], ho, rfl, hkey, fun _ => ht⟩
      target := fun _ => by rw [if_pos (show ticks.toInt < 0 from hneg)]; exact ht }
  · simp only [hneg, ↓reduceIte, settle_next]
    refine ⟨_, rfl, ?_⟩
    exact {
      running := h.running
      normal := h.normal
      locked := h.locked
      kept := h.kept
      frame := ⟨{ f with k := 4 }, by simp [h.normal], ho, rfl, hkey, fun _ => ht⟩
      target := fun _ => by rw [if_neg (show ¬ ticks.toInt < 0 from hneg), ← ht]; rfl }

/-- Settles O58: in the section the mask is set, so that entry is disabled. -/
theorem setTimeoutPIsACriticalSection : Obligations.SetTimeoutPIsACriticalSection := by
  intro s ticks b xs ys zs hr hc hn hm hi h0 hq
  simp only [List.mem_append] at hq
  obtain ⟨u1, r1, h1⟩ := section_entered (b := b) hr hc hn hm hi h0
  obtain ⟨u2, r2, h2⟩ := h1.turns (ts := xs) fun t ht => hq t (.inl (.inl ht))
  obtain ⟨u3, r3, h3⟩ := section_reads h2
  obtain ⟨u4, r4, h4⟩ := h3.turns (ts := ys) fun t ht => hq t (.inl (.inr ht))
  obtain ⟨u5, r5, h5⟩ := section_writes h4
  obtain ⟨u6, r6, h6⟩ := h5.turns (ts := zs) fun t ht => hq t (.inr ht)
  simp only [List.append_assoc]
  rw [runTurns_append _ r1, runTurns_append _ r2, runTurns_append _ r3, runTurns_append _ r4, runTurns_append _ r5,
    runTurns_append _ r6]
  obtain ⟨f, -, -, hk, hkey, -, hrun⟩ := h6.proc
  rw [hrun]
  simp only [setTimeoutPStep, hk, settle_next]
  obtain ⟨ht, hl, ho⟩ := h6.kept
  have hmask : f.key.getLsbD 0 = s.irqLocked := hkey ▸ (lockKey_restores s).2
  exact ⟨_, rfl, h6.target (Nat.le_refl 4), ht, hl, hmask, h6.normal, by simp [h6.normal], by simp [ho]⟩

end

/-! ### SET_TIMEOUT.T (41 R141) -/

/-- SET_TIMEOUT.T, issued at `s` and run with no counter turn and no entry, stands at its step `k` with `o` in the
slot. -/
structure InTimeout (s : State) (ticks : Word) (b : Bool) (k : Nat) (o : SyncOp) (t : State) : Prop where
  running : t.Running
  normal : t.ctx = .normal
  kept : t.cfg = s.cfg ∧ t.count = s.count ∧ t.comp = s.comp ∧ t.lastMark = s.lastMark ∧ t.inten = s.inten ∧
    t.log = s.log
  slot : t.syncOp = o
  captured : k = 3 → o = .none → t.countSnap = s.count
  frame : ∃ f, t.seqNormal = some f ∧ f.op = .setTimeoutT ticks b ∧ f.k = k ∧ f.t = clampTicks s.cfg ticks ∧
    f.m = s.lastMark ∧ (4 ≤ k → f.c = s.count) ∧
    (5 ≤ k → f.r = waitDistance s.cfg (clampTicks s.cfg ticks) s.count s.lastMark)

section
variable {s t : State} {ticks : Word} {b : Bool} {k : Nat} {o : SyncOp}

/-- The processor's turn, by its line of `setTimeoutTStep`. -/
theorem runTurns_setTimeoutT {f : Frame} (hr : t.Running) (hc : t.ctx = .normal) (hf : t.seqNormal = some f)
    (ho : f.op = .setTimeoutT ticks b) :
    runTurns [.proc] t = settle (setTimeoutTStep ticks f { t with issuer := .sequencer }) := by
  have hcall : t.callFrame = some f := by simp [State.callFrame, hc, hf]
  simp only [runTurns, step_given hr, takeTurn_proc hcall, ho]
  rw [exec_setTimeoutT_sequencer (s := { t with issuer := .sequencer }) rfl hcall]
  cases settle (setTimeoutTStep ticks f { t with issuer := .sequencer }) <;> rfl

theorem timeout_issued (hr : s.Running) (hc : s.ctx = .normal) (hn : s.seqNormal = none)
    (hm : s.cfg.mode = .tickless) (hi : s.inited = true) (hs : s.syncOp = .none) :
    ∃ u, runTurns [.issue (encode (.setTimeoutT ticks b))] s = .next u ∧ InTimeout s ticks b 2 .none u := by
  have ha : State.AcceptsCall .tickless { s with issuer := .host } := ⟨rfl, hm, hi, .inl ⟨hc, hn⟩⟩
  have he : exec (.setTimeoutT ticks b) { s with issuer := .host } =
      setTimeoutTStep ticks (Frame.start (.setTimeoutT ticks b)) { s with issuer := .host } := perform_accepted ha
  have ht := takeTurn_issue (s := s) (i := .setTimeoutT ticks b) rfl
  rw [he] at ht
  refine ⟨_, runTurns_cons [] hr ht, ?_⟩
  exact {
    running := hr
    normal := hc
    kept := ⟨rfl, rfl, rfl, rfl, rfl, rfl⟩
    slot := hs
    captured := by simp
    frame := ⟨_, seqNormal_setCall (by exact hc), rfl, rfl, rfl, rfl, by simp, by simp⟩ }

/-- Step 2 posts the capture. -/
theorem timeout_posts (h : InTimeout s ticks b 2 .none t) :
    ∃ u, runTurns [.proc] t = .next u ∧ InTimeout s ticks b 3 .readCount u := by
  obtain ⟨f, hf, ho, hk, ht, hm, -, -⟩ := h.frame
  rw [runTurns_setTimeoutT h.running h.normal hf ho]
  simp only [setTimeoutTStep, hk, orHold_posts (s := { t with issuer := .sequencer }) h.slot, settle_next]
  refine ⟨_, rfl, ?_⟩
  exact {
    running := h.running
    normal := h.normal
    kept := h.kept
    slot := rfl
    captured := by simp
    frame := ⟨_, seqNormal_setCall (by exact h.normal), ho, rfl, ht, hm, by simp, by simp⟩ }

/-- The synchronisation unit captures COUNT. -/
theorem timeout_captures (h : InTimeout s ticks b 3 .readCount t) :
    ∃ u, runTurns [.sync] t = .next u ∧ InTimeout s ticks b 3 .none u := by
  rw [runTurns_sync t h.running, syncUnit_readCount h.slot]
  refine ⟨_, rfl, ?_⟩
  exact {
    running := h.running
    normal := h.normal
    kept := h.kept
    slot := rfl
    captured := fun _ _ => h.kept.2.1
    frame := h.frame }

/-- Step 3 reads the capture. -/
theorem timeout_reads (h : InTimeout s ticks b 3 .none t) :
    ∃ u, runTurns [.proc] t = .next u ∧ InTimeout s ticks b 4 .none u := by
  obtain ⟨f, hf, ho, hk, ht, hm, -, -⟩ := h.frame
  rw [runTurns_setTimeoutT h.running h.normal hf ho]
  simp only [setTimeoutTStep, hk, orHold_goes (s := { t with issuer := .sequencer }) h.slot, settle_next]
  refine ⟨_, rfl, ?_⟩
  exact {
    running := h.running
    normal := h.normal
    kept := h.kept
    slot := h.slot
    captured := by simp
    frame := ⟨_, seqNormal_setCall (by exact h.normal), ho, rfl, ht, hm, fun _ => h.captured rfl rfl, by simp⟩ }

/-- Step 4 computes the distance, and goes on unless it is below the threshold. -/
theorem timeout_goes_on (h : InTimeout s ticks b 4 .none t)
    (hr : s.cfg.leadThreshold ≤ waitDistance s.cfg (clampTicks s.cfg ticks) s.count s.lastMark) :
    ∃ u, runTurns [.proc] t = .next u ∧ InTimeout s ticks b 5 .none u := by
  obtain ⟨f, hf, ho, hk, ht, hm, hc, -⟩ := h.frame
  have hd : waitDistance t.cfg f.t f.c f.m = waitDistance s.cfg (clampTicks s.cfg ticks) s.count s.lastMark := by
    rw [h.kept.1, ht, hm, hc (Nat.le_refl 4)]
  have hge : ¬ waitDistance t.cfg f.t f.c f.m < t.cfg.leadThreshold := by rw [hd, h.kept.1]; omega
  rw [runTurns_setTimeoutT h.running h.normal hf ho]
  simp only [setTimeoutTStep, hk, hge, ↓reduceIte, settle_next]
  refine ⟨_, rfl, ?_⟩
  exact {
    running := h.running
    normal := h.normal
    kept := h.kept
    slot := h.slot
    captured := by simp
    frame := ⟨_, seqNormal_setCall (by exact h.normal), ho, rfl, ht, hm, fun _ => hc (Nat.le_refl 4), fun _ => hd⟩ }

/-- Step 5 finds the slot empty. -/
theorem timeout_awaits (h : InTimeout s ticks b 5 .none t) :
    ∃ u, runTurns [.proc] t = .next u ∧ InTimeout s ticks b 6 .none u := by
  obtain ⟨f, hf, ho, hk, ht, hm, hc, hd⟩ := h.frame
  rw [runTurns_setTimeoutT h.running h.normal hf ho]
  simp only [setTimeoutTStep, hk, orHold_goes (s := { t with issuer := .sequencer }) h.slot, settle_next]
  refine ⟨_, rfl, ?_⟩
  exact {
    running := h.running
    normal := h.normal
    kept := h.kept
    slot := h.slot
    captured := by simp
    frame := ⟨_, seqNormal_setCall (by exact h.normal), ho, rfl, ht, hm, fun _ => hc (by simp),
      fun _ => hd (by simp)⟩ }

/-- Below the threshold step 4 forces the interrupt and ends. -/
theorem timeout_forces (h : InTimeout s ticks b 4 .none t)
    (hr : waitDistance s.cfg (clampTicks s.cfg ticks) s.count s.lastMark < s.cfg.leadThreshold) :
    ∃ u, runTurns [.proc] t = .next u ∧ u.irqPend = true ∧ u.comp = s.comp ∧ u.seqNormal = none ∧ u.syncOp = .none ∧
      u.log = s.log ++ [.returned .setTimeoutT .none] ∧ u.lastMark = s.lastMark ∧ u.count = s.count ∧
      u.inten = s.inten ∧ u.ctx = .normal := by
  obtain ⟨f, hf, ho, hk, ht, hm, hc, -⟩ := h.frame
  obtain ⟨hcfg, hcount, hcomp, hmark, hinten, hlog⟩ := h.kept
  have hlt : waitDistance t.cfg f.t f.c f.m < t.cfg.leadThreshold := by
    rwa [hcfg, ht, hm, hc (Nat.le_refl 4)]
  rw [runTurns_setTimeoutT h.running h.normal hf ho]
  simp only [setTimeoutTStep, hk, hlt, ↓reduceIte, settle_next]
  exact ⟨_, rfl, rfl, hcomp, seqNormal_setCall (by exact h.normal), h.slot, by simp [hlog], hmark, hcount, hinten,
    h.normal⟩

/-- Step 6 posts the write of COMP and ends; the synchronisation unit lands it. -/
theorem timeout_writes (h : InTimeout s ticks b 6 .none t) :
    ∃ u, runTurns [.proc, .sync] t = .next u ∧
      u.comp = s.count + BitVec.ofNat 32 (waitDistance s.cfg (clampTicks s.cfg ticks) s.count s.lastMark) ∧
      u.seqNormal = none ∧ u.syncOp = .none ∧ u.log = s.log ++ [.returned .setTimeoutT .none] ∧
      u.lastMark = s.lastMark ∧ u.count = s.count ∧ u.inten = s.inten ∧ u.ctx = .normal := by
  obtain ⟨f, hf, ho, hk, ht, hm, hc, hd⟩ := h.frame
  obtain ⟨hcfg, hcount, hcomp, hmark, hinten, hlog⟩ := h.kept
  have hp := runTurns_setTimeoutT h.running h.normal hf ho
  simp only [setTimeoutTStep, hk, orHold_posts (s := { t with issuer := .sequencer }) h.slot, settle_next,
    hc (by simp), hd (by simp)] at hp
  rw [show [Turn.proc, Turn.sync] = [.proc] ++ [.sync] from rfl, runTurns_append _ hp,
    runTurns_sync _ (by exact h.running), syncUnit_writeComp (by rfl)]
  exact ⟨_, rfl, rfl, seqNormal_setCall (by exact h.normal), rfl, by simp [hlog], hmark, hcount, hinten, h.normal⟩

/-- Settles O52. -/
theorem setTimeoutTProgramsOrForces : Obligations.SetTimeoutTProgramsOrForces := by
  intro s ticks b hr hc hn hm hi hs
  obtain ⟨u1, r1, h1⟩ := timeout_issued (ticks := ticks) (b := b) hr hc hn hm hi hs
  obtain ⟨u2, r2, h2⟩ := timeout_posts h1
  obtain ⟨u3, r3, h3⟩ := timeout_captures h2
  obtain ⟨u4, r4, h4⟩ := timeout_reads h3
  have run4 (ts : List Turn) :
      runTurns ([.issue (encode (.setTimeoutT ticks b)), .proc, .sync, .proc] ++ ts) s = runTurns ts u4 := by
    rw [show ([.issue (encode (.setTimeoutT ticks b)), .proc, .sync, .proc] ++ ts : List Turn) =
      [.issue (encode (.setTimeoutT ticks b))] ++ ([.proc] ++ ([.sync] ++ ([.proc] ++ ts))) from rfl,
      runTurns_append _ r1, runTurns_append _ r2, runTurns_append _ r3, runTurns_append _ r4]
  refine ⟨fun hd => ?_, fun hd => ?_⟩
  · obtain ⟨u5, r5, h5⟩ := timeout_goes_on h4 hd
    obtain ⟨u6, r6, h6⟩ := timeout_awaits h5
    have hend := timeout_writes h6
    rw [← runTurns_append _ r6, ← runTurns_append _ r5, ← run4] at hend
    exact hend
  · have hend := timeout_forces h4 hd
    rw [← run4] at hend
    exact hend

end

end Sys2Proof.Machine
end

section
/-! PROOF. A whole run of a handler, and COUNT between two captures: O56. -/

namespace Sys2Proof.Machine

/-! ### A handler from entry to IRET -/

/-- The processor is to perform the handler's frame `f`: no ANNOUNCE and no call in the callback is in progress. -/
structure Serves (t : State) (f : Frame) : Prop where
  running : t.Running
  isr : t.ctx = .isr
  alone : t.seqAnn = none ∧ t.seqCall = none
  frame : t.seqIsr = some f

theorem Serves.of_eq {t u : State} {f g : Frame} (h : Serves t f) (hg : u.seqIsr = some g := by rfl)
    (hr : u.refused = t.refused := by rfl) (hm : u.cfg = t.cfg := by rfl) (hc : u.ctx = t.ctx := by rfl)
    (ha : u.seqAnn = t.seqAnn := by rfl) (hk : u.seqCall = t.seqCall := by rfl) : Serves u g where
  running := by rw [State.Running, hr, hm]; exact h.running
  isr := hc.trans h.isr
  alone := by rw [ha, hk]; exact h.alone
  frame := hg

section
variable {t u : State} {f : Frame}

/-- A processor turn in interrupt context is the handler's, and ends without the latch. -/
theorem Serves.proc (h : Serves t f) (ts : List Turn) (he : exec f.op { t with issuer := .sequencer } = .next u)
    (hu : u.ctx = .isr) : runTurns (.proc :: ts) t = runTurns ts u := by
  refine runTurns_cons ts h.running ?_
  have hop : t.currentOp = some f.op := by simp [State.currentOp, h.isr, h.alone.1, h.alone.2, h.frame]
  simp only [takeTurn, proceed, hop, he, settle_next, latch_of_isr hu]

theorem Serves.exec_isrT (h : Serves t f) :
    exec .isrT { t with issuer := .sequencer } = isrTStep f { t with issuer := .sequencer } :=
  exec_isrT_handler (s := { t with issuer := .sequencer }) ⟨rfl, h.isr, h.frame, rfl⟩

theorem Serves.exec_isrP (h : Serves t f) :
    exec .isrP { t with issuer := .sequencer } = isrPStep f { t with issuer := .sequencer } :=
  exec_isrP_handler (s := { t with issuer := .sequencer }) ⟨rfl, h.isr, h.frame, rfl⟩

theorem Serves.isrT (h : Serves t f) (ts : List Turn) (ho : f.op = .isrT)
    (he : isrTStep f { t with issuer := .sequencer } = .next u) (hu : u.ctx = .isr) :
    runTurns (.proc :: ts) t = runTurns ts u := by
  refine h.proc ts ?_ hu
  rw [ho, h.exec_isrT, he]

theorem Serves.isrP (h : Serves t f) (ts : List Turn) (ho : f.op = .isrP)
    (he : isrPStep f { t with issuer := .sequencer } = .next u) (hu : u.ctx = .isr) :
    runTurns (.proc :: ts) t = runTurns ts u := by
  refine h.proc ts ?_ hu
  rw [ho, h.exec_isrP, he]

/-- With no flag set the level is not asserted, so that IRET leaves IRQ_PEND as it is. -/
theorem Serves.iret (h : Serves t f)
    (hx : (f.op = .isrT ∧ f.k = 9) ∨ (f.op = .isrP ∧ f.k = 8)) (hn : t.intflag = ⟨false, false⟩) :
    runTurns [.proc] t = .next { t with issuer := .sequencer, ctx := .normal, seqIsr := none } := by
  have he : exec f.op { t with issuer := .sequencer } = execIret { t with issuer := .sequencer } := by
    obtain ⟨ho, hk⟩ | ⟨ho, hk⟩ := hx
    · rw [ho, h.exec_isrT]
      simp only [isrTStep, hk]
    · rw [ho, h.exec_isrP]
      simp only [isrPStep, hk]
  rw [execIret_sequencer (s := { t with issuer := .sequencer }) rfl h.isr] at he
  have hop : t.currentOp = some f.op := by simp [State.currentOp, h.isr, h.alone.1, h.alone.2, h.frame]
  rw [runTurns_cons [] h.running (by simp only [takeTurn, proceed, hop]; rw [he]; rfl)]
  simp [runTurns, latch, level_eq, hn]

/-- The host's return closes the callback. -/
theorem runTurns_hostReturn {s : State} (ts : List Turn) (hr : s.Running) (hc : s.ctx = .isr)
    (ho : s.callbackOpen = true) (hk : s.seqCall = none) :
    runTurns (.hostReturn :: ts) s = runTurns ts { s with seqAnn := none } := by
  refine runTurns_cons ts hr ?_
  change Host.Outcome.next (latch (hostReturns s)) = _
  rw [hostReturns_open ho hk, latch_of_isr (s := { s with seqAnn := none }) hc]

/-- Entry starts the handler of the build. -/
theorem runTurns_enter {s : State} (ts : List Turn) (hr : s.Running) (hp : s.irqPend = true) (he : s.irqEn = true)
    (hl : s.irqLocked = false) (hc : s.ctx = .normal) :
    runTurns (.enter :: ts) s = runTurns ts (enterInterrupt s) :=
  runTurns_cons ts hr (takeTurn_enter ((entryEnabled_iff s).2 ⟨hp, he, hl, hc, hr.1⟩))

/-- The announcing step of a handler and the host's return: the frame is `g` after it. -/
theorem Serves.announces {g : Frame} (h : Serves t f) (ts : List Turn) (n : Word)
    (he : exec f.op { t with issuer := .sequencer } = callAnnounce n g { t with issuer := .sequencer }) :
    runTurns (.proc :: .hostReturn :: ts) t =
      runTurns ts { t with issuer := .sequencer, log := t.log ++ [.announce n], seqIsr := some g } := by
  rw [callAnnounce_sequencer (s := { t with issuer := .sequencer }) rfl] at he
  rw [h.proc _ he h.isr, runTurns_hostReturn ts (by exact h.running) (by exact h.isr) rfl (by exact h.alone.2)]
  rw [show t.seqAnn = none from h.alone.1]

end

/-- The shared frame clears the bits read (43 R181). -/
theorem diff_self (f : Flags) : f.diff f = ⟨false, false⟩ := by
  simp [Flags.diff]

/-- A handler's frame at its step `k`, past its read `fl` of INTFLAG (43 R181). -/
def Frame.read (i : Instr) (fl : Flags) (k : Nat) : Frame :=
  { Frame.start i with k := k, s := fl }

/-- COUNT captured, the slot empty. -/
def State.captured (s : State) : State :=
  { s with countSnap := s.count, syncOp := .none, syncbusy := false }

/-- The handler of `s`, past its write-back of INTFLAG, with the frame `f`. -/
def State.serving (s : State) (f : Frame) : State :=
  { s with irqPend := false, ctx := .isr, seqIsr := some f, intflag := ⟨false, false⟩, issuer := .sequencer }

/-! ### ISR.T (41 R145) -/

section
variable {s : State}

theorem isrTStep_posts {f : Frame} (hk : f.k = 3) (hs : s.syncOp = .none) : isrTStep f s =
    .next { s with syncOp := .readCount, syncbusy := true, seqIsr := some { f with k := 4 } } := by
  simp [isrTStep, hk, postSync_of_empty hs]

theorem isrTStep_clears {f : Frame} (hk : f.k = 2) (hf : f.s = s.intflag) : isrTStep f s =
    .next { s with intflag := ⟨false, false⟩, seqIsr := some { f with k := 3 } } := by
  simp [isrTStep, hk, hf, diff_self]

/-- ISR.T from entry to its step 5: it holds the count, and goes to its step 8 at the mark, to step 6 elsewhere. -/
theorem runTurns_isrT_reading (ts : List Turn) (hr : s.Running) (hm : s.cfg.mode = .tickless) (hc : s.ctx = .normal)
    (hp : s.irqPend = true) (he : s.irqEn = true) (hl : s.irqLocked = false) (hs : s.syncOp = .none)
    (ha : s.seqAnn = none) (hk : s.seqCall = none) :
    ∃ f, f.op = .isrT ∧ f.c = s.count ∧ f.m = s.lastMark ∧ f.k = (if s.count = s.lastMark then 8 else 6) ∧
      runTurns (.enter :: .proc :: .proc :: .proc :: .sync :: .proc :: .proc :: ts) s =
        runTurns ts (s.captured.serving f) := by
  have h1 : Serves (enterInterrupt s) (Frame.start .isrT) :=
    ⟨hr, rfl, ⟨ha, hk⟩, by simp [enterInterrupt, handlerOf, hm]⟩
  have h2 : Serves { enterInterrupt s with issuer := .sequencer, seqIsr := some (.read .isrT s.intflag 2) }
      (.read .isrT s.intflag 2) := h1.of_eq
  have h3 : Serves (s.serving (.read .isrT s.intflag 3)) (.read .isrT s.intflag 3) := h1.of_eq
  have h4 : Serves { s.serving (.read .isrT s.intflag 4) with syncOp := .readCount, syncbusy := true }
      (.read .isrT s.intflag 4) := h1.of_eq
  have hcap : Serves (s.captured.serving (.read .isrT s.intflag 4)) (.read .isrT s.intflag 4) := h1.of_eq
  have h5 : Serves (s.captured.serving { Frame.read .isrT s.intflag 5 with c := s.count })
      { Frame.read .isrT s.intflag 5 with c := s.count } := h1.of_eq
  refine ⟨{ Frame.read .isrT s.intflag (if s.count = s.lastMark then 8 else 6) with m := s.lastMark, c := s.count },
    rfl, rfl, rfl, rfl, ?_⟩
  calc
    _ = runTurns (.proc :: .proc :: .proc :: .sync :: .proc :: .proc :: ts) (enterInterrupt s) :=
      runTurns_enter _ hr hp he hl hc
    _ = runTurns (.proc :: .proc :: .sync :: .proc :: .proc :: ts) _ := h1.isrT _ rfl rfl rfl
    _ = runTurns (.proc :: .sync :: .proc :: .proc :: ts) _ := h2.isrT _ rfl (isrTStep_clears rfl rfl) rfl
    _ = runTurns (.sync :: .proc :: .proc :: ts) _ := h3.isrT _ rfl (isrTStep_posts rfl hs) rfl
    _ = runTurns (.proc :: .proc :: ts) _ := runTurns_cons _ h4.running rfl
    _ = runTurns (.proc :: ts) _ := hcap.isrT _ rfl rfl rfl
    _ = _ := h5.isrT _ rfl rfl rfl

/-- Off the mark ISR.T announces the whole ticks since the mark, and moves the mark to its capture. -/
theorem runTurns_isrT_reports {f : Frame} (h : Serves s f) (ho : f.op = .isrT) (hk : f.k = 6)
    (hn : s.intflag = ⟨false, false⟩) :
    runTurns [.proc, .hostReturn, .proc, .proc] s = .next { s with
      issuer := .sequencer, log := s.log ++ [.announce (elapsedTicks s.cfg f.c f.m)], lastMark := f.c,
      ctx := .normal, seqIsr := none } := by
  have h7 : Serves { s with
      issuer := .sequencer, log := s.log ++ [.announce (elapsedTicks s.cfg f.c f.m)],
      seqIsr := some { f with k := 7 } } { f with k := 7 } := h.of_eq
  have h9 : Serves { s with
      issuer := .sequencer, log := s.log ++ [.announce (elapsedTicks s.cfg f.c f.m)], lastMark := f.c,
      seqIsr := some { f with k := 9 } } { f with k := 9 } := h.of_eq
  have he : exec f.op { s with issuer := .sequencer } =
      callAnnounce (elapsedTicks s.cfg f.c f.m) { f with k := 7 } { s with issuer := .sequencer } := by
    refine (congrArg (exec · _) ho).trans ?_
    rw [h.exec_isrT]
    simp only [isrTStep, hk]
  calc
    _ = runTurns [.proc, .proc] _ := h.announces _ _ he
    _ = runTurns [.proc] _ := h7.isrT _ ho rfl h.isr
    _ = _ := h9.iret (.inl ⟨ho, rfl⟩) hn

/-- At the mark, where the build says so, ISR.T announces nothing. -/
theorem runTurns_isrT_silent {f : Frame} (h : Serves s f) (ho : f.op = .isrT) (hk : f.k = 8)
    (hz : s.cfg.announceZeroOnEqual = false) (hn : s.intflag = ⟨false, false⟩) :
    runTurns [.proc, .proc] s = .next { s with issuer := .sequencer, ctx := .normal, seqIsr := none } := by
  have h9 : Serves { s with issuer := .sequencer, seqIsr := some { f with k := 9 } } { f with k := 9 } := h.of_eq
  have he : isrTStep f { s with issuer := .sequencer } =
      .next { s with issuer := .sequencer, seqIsr := some { f with k := 9 } } := by
    simp [isrTStep, hk, hz]
  exact (h.isrT _ ho he h.isr).trans (h9.iret (.inl ⟨ho, rfl⟩) hn)

/-- Two captures less than a whole turn of the counter apart differ by the counter steps between. -/
theorem captures_differ {τ : Nat → Turn} {σ : Nat → State} {a b : Nat} (h : RunAlong τ σ) (hab : a < b)
    (hfree : ∀ k, a < k → k ≤ b →
      (σ k).swrstLanded = true ∧ (σ k).ctrl.enable = true ∧ (σ k).ctrl.matchclr = false)
    (hlt : counterSteps τ σ (a + 1) b < 2 ^ 32) :
    ((σ b).count - (σ (a + 1)).count).toNat = counterSteps τ σ (a + 1) b := by
  rw [run_count_steps h (show a + 1 ≤ b by omega) fun k h1 h2 => hfree k (by omega) h2]
  simpa using hlt

theorem MarkedFrom.le {τ : Nat → Turn} {σ : Nat → State} {a d : Nat} (h : MarkedFrom τ σ a d) : a ≤ d := by
  cases h with
  | report _ _ hlt => exact Nat.le_of_lt hlt
  | init => exact Nat.le_refl a

/-- Settles O56. -/
theorem isrTReportsAndMovesTheMark : Obligations.IsrTReportsAndMovesTheMark := by
  refine ⟨fun s hr hm hc hp he hl hs ha hk => ⟨fun hne => ?_, fun heq hz => ?_⟩,
    fun τ σ a d b hrun hok hmark hdb hcap hno hfree => ?_⟩
  · obtain ⟨f, ho, hcount, hmark, hk6, hread⟩ :=
      runTurns_isrT_reading [.proc, .hostReturn, .proc, .proc] hr hm hc hp he hl hs ha hk
    rw [if_neg hne] at hk6
    have h6 : Serves (s.captured.serving f) f :=
      ⟨hr, rfl, ⟨ha, hk⟩, rfl⟩
    refine ⟨_, hread.trans (runTurns_isrT_reports h6 ho hk6 rfl), ?_, hcount, rfl, rfl, rfl, rfl, rfl, rfl, rfl⟩
    rw [hcount, hmark]
    rfl
  · obtain ⟨f, ho, hcount, hmark, hk8, hread⟩ := runTurns_isrT_reading [.proc, .proc] hr hm hc hp he hl hs ha hk
    rw [if_pos heq] at hk8
    have h8 : Serves (s.captured.serving f) f :=
      ⟨hr, rfl, ⟨ha, hk⟩, rfl⟩
    exact ⟨_, hread.trans (runTurns_isrT_silent h8 ho hk8 hz rfl), rfl, rfl, rfl, rfl, rfl, rfl, rfl, rfl, rfl⟩
  · have had := hmark.le
    exact captures_differ hrun (by omega) hfree (hok a d b hmark hdb hcap hno)

end

end Sys2Proof.Machine
end

section
/-! PROOF. ISR.P counts the periods (42 R164, R166, 70 R241): O60. -/

namespace Sys2Proof.Machine

/-! ### One handler run -/

section
variable {s : State}

/-- The counter's last turn latches the level that its flags assert. -/
theorem runTurns_matchClear_pends {j : Nat} (hr : s.Running) (hl : s.swrstLanded = true)
    (he : s.ctrl.enable = true) (hm : s.ctrl.matchclr = true) (hn : s.inten = ⟨false, true⟩) (hc : s.ctx = .normal)
    (hlt : s.count.toNat < s.comp.toNat) (hj : s.comp.toNat ≤ s.count.toNat + j) :
    runTurns (List.replicate j .counter) s = .next { s with
      count := BitVec.ofNat 32 ((s.count.toNat + j) % s.comp.toNat), intflag := ⟨true, true⟩, irqPend := true } := by
  obtain ⟨i, rfl⟩ : ∃ i, j = i + 1 := ⟨j - 1, by omega⟩
  obtain ⟨q, hq⟩ := runTurns_matchClear (i + 1) hr hl he hm hlt
  simp only [hj, decide_true, Flags.union, Bool.or_true] at hq
  obtain ⟨p, hp⟩ := runTurns_matchClear i hr hl he hm hlt
  have hlast := hq
  rw [List.replicate_succ', runTurns_append _ hp, runTurns_counter _ (by exact hr)] at hlast
  have hlatch := Host.Outcome.next.inj hlast
  set x := counterAgent { s with
    count := BitVec.ofNat 32 ((s.count.toNat + i) % s.comp.toNat),
    intflag := s.intflag.union
      ⟨decide (s.comp.toNat ≤ s.count.toNat + i), decide (s.comp.toNat ≤ s.count.toNat + i)⟩,
    irqPend := p }
  have hlevel : (latch x).level = true := by
    rw [hlatch, level_eq]
    simp [hn]
  have hnormal : (latch x).ctx = .normal := by rw [hlatch]; exact hc
  have hpend : q = (latch x).irqPend := by rw [hlatch]
  obtain rfl : q = true := hpend.trans (latch_irqPend_of_level hnormal hlevel)
  exact hq

/-- ISR.P from entry to its step 4, with OVF set: it counts one tick, and goes to its step 5 when that meets the
target, to step 8 elsewhere. -/
theorem runTurns_isrP_counting (ts : List Turn) (hr : s.Running) (hm : s.cfg.mode = .periodic) (hc : s.ctx = .normal)
    (hp : s.irqPend = true) (he : s.irqEn = true) (hl : s.irqLocked = false) (ho : s.intflag.ovf = true)
    (ha : s.seqAnn = none) (hk : s.seqCall = none) :
    ∃ f, f.op = .isrP ∧ f.tick = s.tickCount + 1 ∧ f.k = (if s.tickCount + 1 = s.target then 5 else 8) ∧
      runTurns (.enter :: .proc :: .proc :: .proc :: .proc :: ts) s =
        runTurns ts (State.serving { s with tickCount := s.tickCount + 1 } f) := by
  have h1 : Serves (enterInterrupt s) (Frame.start .isrP) :=
    ⟨hr, rfl, ⟨ha, hk⟩, by simp [enterInterrupt, handlerOf, hm]⟩
  have h2 : Serves { enterInterrupt s with issuer := .sequencer, seqIsr := some (.read .isrP s.intflag 2) }
      (.read .isrP s.intflag 2) := h1.of_eq
  have e2 : isrPStep (.read .isrP s.intflag 2)
      { enterInterrupt s with issuer := .sequencer, seqIsr := some (.read .isrP s.intflag 2) } =
      .next (s.serving (.read .isrP s.intflag 3)) := by
    simp [isrPStep, Frame.read, enterInterrupt, State.serving, diff_self, Flags.isEmpty, ho]
  have h3 : Serves (s.serving (.read .isrP s.intflag 3)) (.read .isrP s.intflag 3) := h1.of_eq
  have h4 : Serves
      (State.serving { s with tickCount := s.tickCount + 1 }
        { Frame.read .isrP s.intflag 4 with tick := s.tickCount + 1 })
      { Frame.read .isrP s.intflag 4 with tick := s.tickCount + 1 } := h1.of_eq
  refine ⟨{ Frame.read .isrP s.intflag (if s.tickCount + 1 = s.target then 5 else 8) with tick := s.tickCount + 1 },
    rfl, rfl, rfl, ?_⟩
  calc
    _ = runTurns (.proc :: .proc :: .proc :: .proc :: ts) (enterInterrupt s) := runTurns_enter _ hr hp he hl hc
    _ = runTurns (.proc :: .proc :: .proc :: ts) _ := h1.isrP _ rfl rfl rfl
    _ = runTurns (.proc :: .proc :: ts) _ := h2.isrP _ rfl e2 rfl
    _ = runTurns (.proc :: ts) _ := h3.isrP _ rfl rfl rfl
    _ = _ := h4.isrP _ rfl rfl rfl

/-- On the target ISR.P announces the ticks since the mark, and moves the mark. -/
theorem runTurns_isrP_announces {f : Frame} (h : Serves s f) (ho : f.op = .isrP) (hk : f.k = 5)
    (hn : s.intflag = ⟨false, false⟩) :
    runTurns [.proc, .hostReturn, .proc, .proc] s = .next { s with
      issuer := .sequencer, log := s.log ++ [.announce (f.tick - s.lastMark)], lastMark := f.tick,
      ctx := .normal, seqIsr := none } := by
  have h6 : Serves { s with
      issuer := .sequencer, log := s.log ++ [.announce (f.tick - s.lastMark)],
      seqIsr := some { f with k := 6, m := s.lastMark } } { f with k := 6, m := s.lastMark } := h.of_eq
  have h8 : Serves { s with
      issuer := .sequencer, log := s.log ++ [.announce (f.tick - s.lastMark)], lastMark := f.tick,
      seqIsr := some { f with k := 8, m := s.lastMark } } { f with k := 8, m := s.lastMark } := h.of_eq
  have he : exec f.op { s with issuer := .sequencer } =
      callAnnounce (f.tick - s.lastMark) { f with k := 6, m := s.lastMark } { s with issuer := .sequencer } := by
    refine (congrArg (exec · _) ho).trans ?_
    rw [h.exec_isrP]
    simp only [isrPStep, hk]
  calc
    _ = runTurns [.proc, .proc] _ := h.announces _ _ he
    _ = runTurns [.proc] _ := h6.isrP _ ho rfl h.isr
    _ = _ := h8.iret (.inr ⟨ho, rfl⟩) hn

end

/-- One handler run after a period end counts one tick. -/
theorem handlerRun_counts {s : State} {j : Nat} (hr : s.Running) (hm : s.cfg.mode = .periodic)
    (hl : s.swrstLanded = true) (he : s.ctrl.enable = true) (hmc : s.ctrl.matchclr = true)
    (hn : s.inten = ⟨false, true⟩) (hc : s.ctx = .normal) (hen : s.irqEn = true) (hlk : s.irqLocked = false)
    (ha : s.seqAnn = none) (hk : s.seqCall = none) (hlt : s.count.toNat < s.comp.toNat)
    (hj : s.comp.toNat ≤ s.count.toNat + j) :
    (s.tickCount + 1 = s.target →
      ∃ t, runTurns (List.replicate j .counter ++ [.enter, .proc, .proc, .proc, .proc] ++
        [.proc, .hostReturn, .proc, .proc]) s = .next t ∧
      t.tickCount = s.tickCount + 1 ∧ t.lastMark = s.tickCount + 1 ∧ t.ctx = .normal ∧
      t.log = s.log ++ [.announce (s.tickCount + 1 - s.lastMark)] ∧ t.intflag = ⟨false, false⟩) ∧
    (s.tickCount + 1 ≠ s.target →
      ∃ t, runTurns (List.replicate j .counter ++ [.enter, .proc, .proc, .proc, .proc] ++ [.proc]) s = .next t ∧
      t.tickCount = s.tickCount + 1 ∧ t.lastMark = s.lastMark ∧ t.ctx = .normal ∧ t.log = s.log ∧
      t.intflag = ⟨false, false⟩) := by
  have hcount := runTurns_matchClear_pends hr hl he hmc hn hc hlt hj
  set u : State := { s with
    count := BitVec.ofNat 32 ((s.count.toNat + j) % s.comp.toNat), intflag := ⟨true, true⟩, irqPend := true }
  have hserve (ts : List Turn) := runTurns_isrP_counting (s := u) ts hr hm hc rfl hen hlk rfl ha hk
  refine ⟨fun ht => ?_, fun ht => ?_⟩
  · obtain ⟨f, ho, htick, hk5, hrun⟩ := hserve [.proc, .hostReturn, .proc, .proc]
    rw [if_pos (show u.tickCount + 1 = u.target from ht)] at hk5
    have h5 : Serves (State.serving { u with tickCount := u.tickCount + 1 } f) f := ⟨hr, rfl, ⟨ha, hk⟩, rfl⟩
    rw [List.append_assoc, runTurns_append _ hcount]
    refine ⟨_, hrun.trans (runTurns_isrP_announces h5 ho hk5 rfl), rfl, htick, rfl, ?_, rfl⟩
    rw [htick]
    rfl
  · obtain ⟨f, ho, htick, hk8, hrun⟩ := hserve [.proc]
    rw [if_neg (show u.tickCount + 1 ≠ u.target from ht)] at hk8
    have h8 : Serves (State.serving { u with tickCount := u.tickCount + 1 } f) f := ⟨hr, rfl, ⟨ha, hk⟩, rfl⟩
    rw [List.append_assoc, runTurns_append _ hcount]
    exact ⟨_, hrun.trans (h8.iret (.inr ⟨ho, hk8⟩) rfl), rfl, rfl, rfl, rfl, rfl⟩

end Sys2Proof.Machine
end

section
/-! PROOF. A run under PERIODIC_LATENCY_OK counts every period (42 R166, 70 R241): the second part of O60. TICK_COUNT,
plus a period that OVF shows or that the handler has read and not yet counted, is kept in step with the period ends. -/

namespace Sys2Proof.Machine

/-! ### What runs in a PERIODIC build -/

/-- The calls of a PERIODIC build. -/
def PeriodicCall (i : Instr) : Prop :=
  (∃ t b, i = .setTimeoutP t b) ∨ i = .queryElapsedP ∨ i = .idleExitP

/-- The calls in flight are a PERIODIC build's. -/
def PeriodicCalls (s : State) : Prop :=
  ∀ f, s.seqNormal = some f ∨ s.seqCall = some f → PeriodicCall f.op

theorem PeriodicCalls.of_eq {s t : State} (h : PeriodicCalls s) (hn : t.seqNormal = s.seqNormal := by rfl)
    (hk : t.seqCall = s.seqCall := by rfl) : PeriodicCalls t := by
  rw [PeriodicCalls, hn, hk]
  exact h

theorem PeriodicCalls.setCall {s : State} (h : PeriodicCalls s) (o : Option Frame)
    (ho : ∀ f, o = some f → PeriodicCall f.op) : PeriodicCalls (s.setCall o) := by
  intro f hf
  simp only [setCall_seqNormal, setCall_seqCall] at hf
  split at hf
  · obtain hf | hf := hf
    · exact ho f hf
    · exact h f (.inr hf)
  · obtain hf | hf := hf
    · exact h f (.inl hf)
    · exact ho f hf

/-- What a call of a PERIODIC build leaves as it is, beside what every operation leaves (42 R161 to R163). -/
structure CallKeeps (s t : State) : Prop where
  slot : t.syncOp = s.syncOp := by rfl
  handler : t.seqIsr = s.seqIsr := by rfl
  calls : PeriodicCalls s → PeriodicCalls t

section
variable {s : State} {f : Frame}

theorem CallKeeps.moves {t : State} (h : PeriodicCall f.op) (g : Frame) (hg : g.op = f.op := by rfl)
    (hs : t.syncOp = s.syncOp := by rfl) (hi : t.seqIsr = s.seqIsr := by rfl)
    (hn : t.seqNormal = s.seqNormal := by rfl) (hk : t.seqCall = s.seqCall := by rfl) :
    CallKeeps s (t.setCall (some g)) where
  slot := hs
  handler := hi
  calls hc := (hc.of_eq hn hk).setCall _ (by rintro _ ⟨⟩; rwa [hg])

theorem CallKeeps.ends {t : State} {c : Call} {v : Result} (hs : t.syncOp = s.syncOp := by rfl)
    (hi : t.seqIsr = s.seqIsr := by rfl) (hn : t.seqNormal = s.seqNormal := by rfl)
    (hk : t.seqCall = s.seqCall := by rfl) : CallKeeps s (t.endCall c v) where
  slot := hs
  handler := hi
  calls hc := ((hc.of_eq hn hk).setCall none (by simp)).of_eq

theorem setTimeoutPStep_callKeeps (ticks : Word) (h : PeriodicCall f.op) :
    Answers (CallKeeps s) (setTimeoutPStep ticks f s) := by
  unfold setTimeoutPStep
  split
  case h_1 =>
    split
    · exact .next .ends
    · exact .next (.moves h _)
  case h_2 => exact .next (.moves h _)
  case h_3 =>
    split
    · exact .next (.moves h _)
    · exact .next (.moves h _)
  case h_4 => exact .next .ends
  case h_5 => exact .fault _

theorem queryElapsedPStep_callKeeps (h : PeriodicCall f.op) : Answers (CallKeeps s) (queryElapsedPStep f s) := by
  unfold queryElapsedPStep
  split
  · exact .next (.moves h _)
  · exact .next .ends
  · exact .fault _

theorem idleExitPStep_callKeeps : Answers (CallKeeps s) (idleExitPStep f s) := by
  unfold idleExitPStep
  split
  · exact .next .ends
  · exact .fault _

end

/-- The body of a PERIODIC build's call, whoever performs it. -/
theorem periodicCall_keeps {i : Instr} {s t : State} (hi : PeriodicCall i) (hp : PeriodicCalls s)
    (he : exec i s = .next t) : CallKeeps s t := by
  have hr (r : Reason) : CallKeeps s (refuse r s) := { calls := fun h => h.of_eq }
  have hcall (f : Frame) (hf : s.callFrame = some f) : PeriodicCall f.op := by
    cases hc : s.ctx <;> simp only [State.callFrame, hc] at hf
    · exact hp f (.inl hf)
    · exact hp f (.inr hf)
  obtain ⟨ticks, b, rfl⟩ | rfl | rfl := hi
  · obtain ⟨r, -, -, rfl⟩ | ⟨-, -, h⟩ | ⟨f, -, hf, h⟩ := perform_cases he
    · exact hr r
    · exact (setTimeoutPStep_callKeeps ticks (.inl ⟨ticks, b, rfl⟩)).of_next t h
    · exact (setTimeoutPStep_callKeeps ticks (hcall f hf)).of_next t h
  · obtain ⟨r, -, -, rfl⟩ | ⟨-, -, h⟩ | ⟨f, -, hf, h⟩ := perform_cases he
    · exact hr r
    · exact (queryElapsedPStep_callKeeps (.inr (.inl rfl))).of_next t h
    · exact (queryElapsedPStep_callKeeps (hcall f hf)).of_next t h
  · obtain ⟨r, -, -, rfl⟩ | ⟨-, -, h⟩ | ⟨f, -, hf, h⟩ := perform_cases he
    · exact hr r
    · exact idleExitPStep_callKeeps.of_next t h
    · exact idleExitPStep_callKeeps.of_next t h

/-- After INIT the host may issue the calls of a PERIODIC build, and nothing but primitives beside them. -/
theorem periodicCall_of_issued {i : Instr} {s t : State} (hs : s.issuer = .host) (hm : s.cfg.mode = .periodic)
    (hi : s.inited = true) (hr : roleOf i ≠ .primitive) (he : exec i s = .next t) (ht : t.refused = false) :
    PeriodicCall i := by
  have not_refused {r : Reason} (hx : exec i s = .next (refuse r s)) : PeriodicCall i := by
    rw [Host.Outcome.next.inj (he.symm.trans hx)] at ht
    cases ht
  have ha : admitCall .tickless s = some .wrongMode := admitCall_of_otherMode (by simp [hm])
  cases i with
  | init => exact not_refused (exec_init_twice hs hi)
  | setTimeoutT t b => exact not_refused (exec_ticklessCall_refused (t := t) (b := b) hs ha (by simp))
  | queryElapsedT | idleExitT => exact not_refused (exec_ticklessCall_refused (t := 0) (b := false) hs ha (by simp))
  | setTimeoutP t b => exact .inl ⟨t, b, rfl⟩
  | queryElapsedP => exact .inr (.inl rfl)
  | idleExitP => exact .inr (.inr rfl)
  | announce n => exact not_refused (exec_handlerOp_refused (n := n) hs (by simp))
  | isrT | isrP | iret => exact not_refused (exec_handlerOp_refused (n := 0) hs (by simp))
  | _ => exact absurd rfl hr

/-! ### The ledger -/

/-- The handler stands at its step `k`. -/
def State.handlerAtStep (s : State) (k : Nat) : Prop :=
  ∃ f, s.seqIsr = some f ∧ f.k = k

/-- The ticks counted, the period that OVF shows, and the one that the handler is about to count at its step 3. -/
def State.ledger (s : State) : Word :=
  s.tickCount + (if s.intflag.ovf then 1 else 0) +
    match s.seqIsr with
    | some f => if f.k = 3 then 1 else 0
    | none => 0

/-- An initialised PERIODIC machine whose counter runs with the period `c` and whose slot stays empty; from its step
1 to its step 2 the handler holds the flags as they are. -/
structure Ticking (c : Word) (s : State) : Prop where
  mode : s.cfg.mode = .periodic
  inited : s.inited = true
  landed : s.swrstLanded = true
  ctrl : s.ctrl = initCtrl .periodic true
  comp : s.comp = c
  below : s.count.toNat < c.toNat
  slot : s.syncOp = .none
  flags : s.intflag.cmp = s.intflag.ovf
  calls : PeriodicCalls s
  read : ∀ f, s.seqIsr = some f → f.k = 2 → s.intflag = f.s

/-- A turn that ends no period keeps the machine ticking and the ledger as it is, and does not set OVF; while it
leaves OVF set the handler stays at its step 2 if it is there. -/
structure KeepsLedger (c : Word) (s t : State) : Prop where
  ticking : Ticking c t
  ledger : t.ledger = s.ledger
  ovf : t.intflag.ovf = true → s.intflag.ovf = true
  read : t.intflag.ovf = true → s.handlerAtStep 2 → t.handlerAtStep 2

section
variable {c : Word} {s t : State}

/-- A turn that leaves the counter, its flags, the ticks and the handler's frame. -/
theorem Ticking.keeps (h : Ticking c s) (hp : PeriodicCalls s → PeriodicCalls t := by exact fun h => h.of_eq)
    (hm : t.cfg = s.cfg := by rfl) (hd : t.inited = s.inited := by rfl) (hl : t.swrstLanded = s.swrstLanded := by rfl)
    (hc : t.ctrl = s.ctrl := by rfl) (ho : t.comp = s.comp := by rfl)
    (hn : s.count.toNat < c.toNat → t.count.toNat < c.toNat := by exact id)
    (hs : t.syncOp = s.syncOp := by rfl) (hf : t.intflag = s.intflag := by rfl)
    (hk : t.tickCount = s.tickCount := by rfl) (hi : t.seqIsr = s.seqIsr := by rfl) : KeepsLedger c s t where
  ticking := {
    mode := by rw [hm]; exact h.mode
    inited := hd.trans h.inited
    landed := hl.trans h.landed
    ctrl := hc.trans h.ctrl
    comp := ho.trans h.comp
    below := hn h.below
    slot := hs.trans h.slot
    flags := by rw [hf]; exact h.flags
    calls := hp h.calls
    read := by rw [hi, hf]; exact h.read }
  ledger := by rw [State.ledger, hk, hf, hi, State.ledger]
  ovf := by rw [hf]; exact id
  read := by
    rintro - ⟨f, hf', h2⟩
    exact ⟨f, hi.trans hf', h2⟩

theorem KeepsLedger.latched (h : KeepsLedger c s t) : KeepsLedger c s (latch t) where
  ticking := { h.ticking with calls := h.ticking.calls.of_eq }
  ledger := h.ledger
  ovf := h.ovf
  read := h.read

/-- A step of the handler that only moves its frame, not from or to the steps 2 and 3. -/
theorem Ticking.handlerMoves {f g : Frame} (h : Ticking c s) (hf : s.seqIsr = some f)
    (hk : f.k ≠ 2 ∧ f.k ≠ 3 := by omega) (hg : g.k ≠ 2 ∧ g.k ≠ 3 := by simp) :
    KeepsLedger c s { s with seqIsr := some g } where
  ticking := { h with
    calls := h.calls.of_eq
    read := by
      rintro _ ⟨⟩ h2
      exact absurd h2 hg.1 }
  ledger := by simp [State.ledger, hf, hk.2, hg.2]
  ovf := id
  read := by
    rintro - ⟨f', hf', h2⟩
    obtain rfl : f = f' := by simpa [hf] using hf'
    exact absurd h2 hk.1

theorem KeepsLedger.trans {u : State} (h : KeepsLedger c s u) (h' : KeepsLedger c u t) : KeepsLedger c s t where
  ticking := h'.ticking
  ledger := h'.ledger.trans h.ledger
  ovf := h.ovf ∘ h'.ovf
  read ht hs := h'.read ht (h.read (h'.ovf ht) hs)

/-- A handler's frame that is not at its step 2 says nothing of where it goes. -/
theorem not_atStep {f : Frame} {k : Nat} (hf : s.seqIsr = some f) (hk : f.k ≠ k) : ¬ s.handlerAtStep k := by
  rintro ⟨g, hg, h2⟩
  obtain rfl : f = g := by simpa [hf] using hg
  exact hk h2

/-- Step 1 reads INTFLAG (43 R181). -/
theorem Ticking.reads {f : Frame} (h : Ticking c s) (hf : s.seqIsr = some f) (hk : f.k = 1) :
    KeepsLedger c s { s with seqIsr := some { f with k := 2, s := s.intflag } } where
  ticking := { h with
    calls := h.calls.of_eq
    read := by
      rintro _ ⟨⟩ -
      rfl }
  ledger := by simp [State.ledger, hf, hk]
  ovf := id
  read _ h2 := absurd h2 (not_atStep hf (by omega))

/-- Step 2 clears the flags read; with none it goes to the forced branch (43 R181, 42 R164). -/
theorem Ticking.clears {f : Frame} (h : Ticking c s) (hf : s.seqIsr = some f) (hk : f.k = 2) :
    KeepsLedger c s { s with
      intflag := s.intflag.diff f.s, seqIsr := some { f with k := if f.s.isEmpty then 7 else 3 } } where
  ticking := { h with
    calls := h.calls.of_eq
    flags := by simp [h.read f hf hk, diff_self]
    read := by
      rintro _ ⟨⟩ h2
      dsimp only at h2
      split at h2 <;> omega }
  ledger := by
    rw [← h.read f hf hk, diff_self]
    cases ho : s.intflag.ovf <;> simp [State.ledger, hf, hk, ho, h.flags, Flags.isEmpty]
  ovf := by simp [h.read f hf hk, diff_self]
  read := by simp [h.read f hf hk, diff_self]

/-- Step 3 counts the tick. -/
theorem Ticking.counts {f g : Frame} (h : Ticking c s) (hf : s.seqIsr = some f) (hk : f.k = 3) (hg : g.k = 4) :
    KeepsLedger c s { s with tickCount := s.tickCount + 1, seqIsr := some g } where
  ticking := { h with
    calls := h.calls.of_eq
    read := by
      rintro _ ⟨⟩ h2
      omega }
  ledger := by
    cases ho : s.intflag.ovf <;> simp [State.ledger, hf, hk, hg, ho]
  ovf := id
  read _ h2 := absurd h2 (not_atStep hf (by omega))

/-- IRET leaves no handler. -/
theorem Ticking.returns {f : Frame} {p : Bool} (h : Ticking c s) (hf : s.seqIsr = some f) (hk : f.k = 8) :
    KeepsLedger c s { s with ctx := .normal, seqIsr := none, irqPend := p } where
  ticking := { h with
    calls := h.calls.of_eq
    read := by simp }
  ledger := by simp [State.ledger, hf, hk]
  ovf := id
  read _ h2 := absurd h2 (not_atStep hf (by omega))

/-- Entry starts the handler at its step 1; there was none. -/
theorem Ticking.enters {f : Frame} {p : Bool} {x : Context} (h : Ticking c s) (hn : s.seqIsr = none) (hk : f.k = 1) :
    KeepsLedger c s { s with irqPend := p, ctx := x, seqIsr := some f } where
  ticking := { h with
    calls := h.calls.of_eq
    read := by
      rintro _ ⟨⟩ h2
      omega }
  ledger := by simp [State.ledger, hn, hk]
  ovf := id
  read := by
    rintro - ⟨g, hg, -⟩
    simp [hn] at hg

/-- Every step of ISR.P keeps the ledger. -/
theorem isrPStep_keepsLedger {f : Frame} (h : Ticking c s) (hs : s.issuer = .sequencer) (hc : s.ctx = .isr)
    (hf : s.seqIsr = some f) : Answers (KeepsLedger c s) (isrPStep f s) := by
  unfold isrPStep
  split
  case h_1 hk => exact .next (h.reads hf hk)
  case h_2 hk => exact .next (h.clears hf hk)
  case h_3 hk => exact .next (h.counts hf hk rfl)
  case h_4 hk =>
    refine .next (h.handlerMoves hf (by omega) ?_)
    dsimp only
    split <;> simp
  case h_5 hk =>
    rw [callAnnounce_sequencer hs]
    have hm := h.handlerMoves hf (g := { f with k := 6, m := s.lastMark }) (by omega)
    exact .next (hm.trans hm.ticking.keeps)
  case h_6 hk =>
    have hm := h.handlerMoves hf (g := { f with k := 8 }) (by omega)
    exact .next (hm.trans hm.ticking.keeps)
  case h_7 hk =>
    rw [callAnnounce_sequencer hs]
    have hm := h.handlerMoves hf (g := { f with k := 8 }) (by omega)
    exact .next (hm.trans hm.ticking.keeps)
  case h_8 hk =>
    rw [execIret_sequencer hs hc]
    exact .next (h.returns hf hk)
  case h_9 => exact .fault _

end

/-! ### Every turn but a period's end keeps the ledger -/

/-- A call of a PERIODIC build keeps the ledger. -/
theorem periodicCall_keepsLedger {c : Word} {i : Instr} {s t : State} (h : Ticking c s) (hi : PeriodicCall i)
    (he : exec i s = .next t) : KeepsLedger c s t := by
  obtain ⟨hslot, hisr, hcalls⟩ := periodicCall_keeps hi h.calls he
  have hk := exec_keeps he
  have hf := exec_kept he .intflag (by
    obtain ⟨_, _, rfl⟩ | rfl | rfl := hi <;> simp [Item.Writer])
  have ht := exec_kept he .tickCount (by
    obtain ⟨_, _, rfl⟩ | rfl | rfl := hi <;> simp [Item.Writer])
  have hd := exec_kept he .inited (by
    obtain ⟨_, _, rfl⟩ | rfl | rfl := hi <;> simp [Item.Writer])
  exact h.keeps hcalls hk.cfg hd hk.swrstLanded hk.ctrl hk.comp (by rw [hk.count]; exact id) hslot hf ht hisr

/-- An operation of the host or of the sequencer, other than a primitive, keeps the ledger. -/
theorem exec_keepsLedger {c : Word} {i : Instr} {s t : State} (h : Ticking c s) (hinv : s.Inv)
    (hr : roleOf i ≠ .primitive) (hx : s.issuer = .host ∨ (s.issuer = .sequencer ∧ s.currentOp = some i))
    (he : exec i s = .next t) (ht : t.refused = false) : KeepsLedger c s t := by
  obtain hs | ⟨hs, hi⟩ := hx
  · exact periodicCall_keepsLedger h (periodicCall_of_issued hs h.mode h.inited hr he ht) he
  cases hc : s.ctx with
  | normal =>
    obtain ⟨f, hf, rfl, -⟩ := currentOp_of_normal hinv hc hi
    exact periodicCall_keepsLedger h (h.calls f (.inl hf)) he
  | isr =>
    obtain ⟨f, hf, rfl, -⟩ | ⟨-, f, n, hf, hk, rfl⟩ | ⟨-, -, f, hf, ho, hm, -⟩ := currentOp_of_isr hinv hc hi
    · exact periodicCall_keepsLedger h (h.calls f (.inr hf)) he
    · rw [show exec (.announce n) s = .next s by simp [exec, execAnnounce, hs, hf, hk]] at he
      rw [← Host.Outcome.next.inj he]
      exact h.keeps
    · rw [h.mode] at hm
      rw [hm, handlerOf, exec_isrP_handler ⟨hs, hc, hf, rfl⟩] at he
      exact (isrPStep_keepsLedger h hs hc hf).of_next t he

/-- The counter, below COMP, ends a period exactly at COMP - 1. -/
theorem count_meets_comp {s : State} (h : s.count.toNat < s.comp.toNat) :
    s.count + 1#32 = s.comp ↔ s.count.toNat + 1 = s.comp.toNat := by
  have hc := s.comp.isLt
  have hn : (s.count + 1#32).toNat = s.count.toNat + 1 := by
    rw [BitVec.toNat_add]
    exact Nat.mod_eq_of_lt (by simp; omega)
  rw [← hn]
  exact ⟨fun e => congrArg BitVec.toNat e, BitVec.eq_of_toNat_eq⟩

section
variable {c : Word} {s : State}

/-- A counter step that ends no period keeps the ledger. -/
theorem countMatchClear_keepsLedger (h : Ticking c s) (hne : s.count.toNat + 1 ≠ s.comp.toNat) :
    KeepsLedger c s (countMatchClear s) := by
  have hlt : s.count.toNat < s.comp.toNat := by rw [h.comp]; exact h.below
  have hcomp := s.comp.isLt
  have hmod : (s.count.toNat + 1) % s.comp.toNat = s.count.toNat + 1 := Nat.mod_eq_of_lt (by omega)
  rw [countMatchClear_below hlt]
  refine h.keeps (hn := fun _ => ?_) (hf := by simp [hne, Flags.union])
  rw [hmod, BitVec.toNat_ofNat, Nat.mod_eq_of_lt (by omega), ← h.comp]
  omega

/-- The end of a period sets the flags, and with OVF clear before adds 1 to the ledger. -/
theorem countMatchClear_endsPeriod (h : Ticking c s) (he : s.count.toNat + 1 = s.comp.toNat)
    (ho : s.intflag.ovf = false) (h2 : ¬ s.handlerAtStep 2) :
    Ticking c (countMatchClear s) ∧ (countMatchClear s).ledger = s.ledger + 1 := by
  have hlt : s.count.toNat < s.comp.toNat := by omega
  rw [countMatchClear_below hlt]
  refine ⟨{ h with
    below := ?_
    flags := by simp [he, Flags.union]
    calls := h.calls.of_eq
    read := fun f hf hk => absurd ⟨f, hf, hk⟩ h2 }, ?_⟩
  · have hb := h.below
    simp [he]
    omega
  · simp only [State.ledger, ho, he, Flags.union, decide_true, Bool.or_true, Bool.false_eq_true, ↓reduceIte, add_zero]
    ac_rfl

/-! ### Along the run -/

variable {τ : Nat → Turn} {σ : Nat → State}

theorem run_inv (h : RunAlong τ σ) (h0 : (σ 0).Inv) (n : Nat) : (σ n).Inv := by
  induction n with
  | zero => exact h0
  | succ n ih =>
    obtain ⟨u, hu, hi⟩ := takeTurn_inv ih (τ n)
    rw [(run_turn h n).2] at hu
    rwa [Host.Outcome.next.inj hu]

/-- In the ticking machine a period ends where a counter turn finds COUNT at COMP - 1. -/
theorem periodEnd_iff {n : Nat} (h : Ticking c (σ n)) :
    periodEnd τ σ n = true ↔ τ n = .counter ∧ (σ n).count.toNat + 1 = (σ n).comp.toNat := by
  have hm := count_meets_comp (s := σ n) (by rw [h.comp]; exact h.below)
  simp [periodEnd, counterStep, h.ctrl, h.landed, initCtrl, hm]

/-- A counter turn of the ticking machine counts with match-clear. -/
theorem run_ticks {n : Nat} (h : RunAlong τ σ) (ht : Ticking c (σ n)) (hc : τ n = .counter) :
    σ (n + 1) = latch (countMatchClear (σ n)) := by
  rw [run_counter h hc, counterAgent_matchClear ht.landed (by rw [ht.ctrl]; rfl) (by rw [ht.ctrl]; rfl)]

/-- A turn of the run that ends no period keeps the ledger. -/
theorem run_keepsLedger {n : Nat} (h : RunAlong τ σ) (hinv : (σ n).Inv) (ht : Ticking c (σ n))
    (hprim : ∀ m i, performedAt τ σ m = some i → roleOf i ≠ .primitive) (hno : ¬ periodEnd τ σ n = true) :
    KeepsLedger c (σ n) (σ (n + 1)) := by
  have hnext := (run_turn h (n + 1)).1.1
  obtain ⟨u, hu, hcases⟩ := run_cases h n
  rw [hu] at hnext ⊢
  refine KeepsLedger.latched ?_
  have hown (x : Issuer) : KeepsLedger c (σ n) { σ n with issuer := x } := ht.keeps
  obtain ⟨i, x, hi, he, hx⟩ | ⟨-, rfl, -⟩ | ⟨hc, rfl⟩ | ⟨-, rfl⟩ | ⟨-, rfl⟩ | ⟨-, rfl⟩ := hcases
  · refine (hown x).trans (exec_keepsLedger (s := { σ n with issuer := x }) (hown x).ticking hinv.of_eq
      (hprim n i hi) ?_ he hnext)
    obtain ⟨rfl, -⟩ | ⟨rfl, -, hop⟩ | ⟨k, rfl, -⟩ := hx
    · exact .inl rfl
    · exact .inr ⟨rfl, hop⟩
    · exact absurd (exec_program rfl he) (hprim n i hi)
  · exact ht.keeps
  · rw [counterAgent_matchClear ht.landed (by rw [ht.ctrl]; rfl) (by rw [ht.ctrl]; rfl)]
    exact countMatchClear_keepsLedger ht fun hm => hno ((periodEnd_iff ht).2 ⟨hc, hm⟩)
  · rw [syncUnit_empty ht.slot]
    exact ht.keeps
  · obtain ⟨he, e⟩ | ⟨-, e⟩ := interruptEntry_cases (σ n)
    · rw [e]
      obtain ⟨-, -, -, hx, -⟩ := (entryEnabled_iff (σ n)).1 he
      exact ht.enters (hinv.outside hx).1 rfl
    · rw [e]
      exact ht.keeps
  · obtain ⟨-, -, e⟩ | e := hostReturns_cases (σ n)
    · rw [e]
      exact ht.keeps
    · rw [e]
      exact ht.keeps

/-- The handler's read of INTFLAG brings it to its step 2. -/
theorem run_reads {n : Nat} {f : Frame} (h : RunAlong τ σ) (hinv : (σ n).Inv) (hm : (σ n).cfg.mode = .periodic)
    (hs : handlerStep τ σ n f 1) : (σ (n + 1)).handlerAtStep 2 := by
  obtain ⟨ht, hc, hk, ha, hf, h1⟩ := hs
  have hop : f.op = .isrP := by
    obtain ⟨g, hg, -, ho⟩ := hinv.handler hc
    obtain rfl : f = g := by simpa [hf] using hg
    rw [ho, hm]
    rfl
  have hserve : Serves (σ n) f := ⟨(run_turn h n).1, hc, ⟨ha, hk⟩, hf⟩
  have hcur : (σ n).currentOp = some .isrP := by simp [State.currentOp, hc, ha, hk, hf, hop]
  have hturn := (run_turn h n).2
  simp only [ht, takeTurn, proceed, hcur, hserve.exec_isrP, isrPStep, h1, settle_next] at hturn
  rw [← Host.Outcome.next.inj hturn]
  exact ⟨_, rfl, rfl⟩

/-- While OVF is set a period has ended that the handler has not read since, or it has just read it. -/
def Outstanding (τ : Nat → Turn) (σ : Nat → State) (n : Nat) : Prop :=
  (σ n).intflag.ovf = true → ∃ a < n, periodEnd τ σ a = true ∧
    ((∀ m f, a < m → m < n → ¬ handlerStep τ σ m f 1) ∨ (σ n).handlerAtStep 2)

/-- Under PERIODIC_LATENCY_OK no period ends while OVF is set. -/
theorem ovf_clear_at_periodEnd {n : Nat} (hlat : PeriodicLatencyOk τ σ) (ho : Outstanding τ σ n)
    (h2 : ¬ (σ n).handlerAtStep 2) (hend : periodEnd τ σ n = true) : (σ n).intflag.ovf = false := by
  rw [Bool.eq_false_iff]
  intro hovf
  obtain ⟨a, han, ha, hno | hat⟩ := ho hovf
  · obtain ⟨m, f, h1, hm, hstep⟩ := hlat a n han ha hend
    exact hno m f h1 hm hstep
  · exact h2 hat

/-- A turn that ends no period leaves the outstanding period outstanding, until it is read. -/
theorem outstanding_next {n : Nat} (h : RunAlong τ σ) (hinv : (σ n).Inv) (hm : (σ n).cfg.mode = .periodic)
    (hk : KeepsLedger c (σ n) (σ (n + 1))) (ho : Outstanding τ σ n) : Outstanding τ σ (n + 1) := by
  intro hovf
  obtain ⟨a, han, ha, hno | hat⟩ := ho (hk.ovf hovf)
  · refine ⟨a, by omega, ha, ?_⟩
    by_cases hread : ∃ f, handlerStep τ σ n f 1
    · obtain ⟨f, hf⟩ := hread
      exact .inr (run_reads h hinv hm hf)
    · refine .inl fun m f h1 hlt hstep => ?_
      obtain rfl | hlt := Nat.lt_succ_iff_lt_or_eq.1 hlt |>.symm
      · exact hread ⟨f, hstep⟩
      · exact hno m f h1 hlt hstep
  · exact ⟨a, by omega, ha, .inr (hk.read hovf hat)⟩

/-- Along the run the ledger counts the period ends. -/
theorem run_ledger (h : RunAlong τ σ) (hlat : PeriodicLatencyOk τ σ)
    (hread : ∀ m f, periodEnd τ σ m = true → (σ m).seqIsr = some f → f.k ≠ 2)
    (hprim : ∀ m i, performedAt τ σ m = some i → roleOf i ≠ .primitive)
    (hinv : (σ 0).Inv) (ht : Ticking c (σ 0)) (ho : (σ 0).intflag.ovf = false) (n : Nat) :
    Ticking c (σ n) ∧ (σ n).ledger = (σ 0).ledger + BitVec.ofNat 32 (periodEnds τ σ n) ∧ Outstanding τ σ n := by
  induction n with
  | zero => exact ⟨ht, by simp, fun hovf => by simp [ho] at hovf⟩
  | succ n ih =>
    obtain ⟨htick, hledger, hout⟩ := ih
    have hi := run_inv h hinv n
    by_cases hend : periodEnd τ σ n = true
    · obtain ⟨hc, hcount⟩ := (periodEnd_iff htick).1 hend
      have h2 : ¬ (σ n).handlerAtStep 2 := fun ⟨f, hf, hk⟩ => hread n f hend hf hk
      obtain ⟨htick', hledger'⟩ :=
        countMatchClear_endsPeriod htick hcount (ovf_clear_at_periodEnd hlat hout h2 hend) h2
      rw [run_ticks h htick hc]
      refine ⟨{ htick' with calls := htick'.calls.of_eq }, ?_, fun _ => ⟨n, by omega, hend, .inl ?_⟩⟩
      · rw [periodEnds_succ, if_pos hend, BitVec.ofNat_add, ← BitVec.add_assoc, ← hledger]
        exact hledger'
      · intro m f h1 h2
        omega
    · have hk := run_keepsLedger h hi htick hprim hend
      refine ⟨hk.ticking, ?_, outstanding_next h hi htick.mode hk hout⟩
      rw [hk.ledger, hledger, periodEnds_succ, if_neg hend, Nat.add_zero]

/-- In normal context there is no handler, so the ledger is the ticks and the period that OVF shows. -/
theorem ledger_normal (hinv : s.Inv) (hc : s.ctx = .normal) :
    s.ledger = s.tickCount + if s.intflag.ovf then 1 else 0 := by
  simp [State.ledger, (hinv.outside hc).1]

end

/-- Settles O60. -/
theorem oneHandlerRunCountsOneTick : Obligations.OneHandlerRunCountsOneTick := by
  refine ⟨fun s j hr hm hl he hmc hn hc hen hlk ha hk hlt hj =>
      handlerRun_counts hr hm hl he hmc hn hc hen hlk ha hk hlt hj,
    fun τ σ n hrun hlat hread hprim hinv hm hi hc hn hs hl hctrl hlt hf hnormal => ?_⟩
  obtain ⟨hisr, -, hcall⟩ := hinv.outside hc
  have ht : Ticking (σ 0).comp (σ 0) := {
    mode := hm
    inited := hi
    landed := hl
    ctrl := hctrl
    comp := rfl
    below := hlt
    slot := hs
    flags := by rw [hf]
    calls := fun f h => by simp [hn, hcall] at h
    read := by simp [hisr] }
  obtain ⟨-, hledger, -⟩ := run_ledger hrun hlat hread hprim hinv ht (by rw [hf]) n
  rw [ledger_normal (run_inv hrun hinv n) hnormal, ledger_normal hinv hc] at hledger
  simpa [hf] using hledger

end Sys2Proof.Machine
end
